-- ==== Sys2Proof/Word.lean ====
section
/-! DEFINITION. The words of the engine: bytes, 32-bit words, single bits and caller identities. -/

namespace Sys2Proof

/-- One byte of a byte string (00_scope.md R14). -/
abbrev Byte := BitVec 8

/-- A 32-bit word: a wire word, a descriptor word or a remote register value (00_scope.md R12). -/
abbrev Word32 := BitVec 32

/-- A one-bit field of a wire word or of a descriptor (00_scope.md R13). -/
abbrev Bit := BitVec 1

/-- The identity of a caller: the spec allows any type with equality (93_implementation_defined.md); notes/assumptions/13.md. -/
abbrev Caller := Nat

end Sys2Proof
end

