-- ==== Sys2Proof/Config.lean ====
section
/-! DEFINITION. The implementation parameters of 00_scope.md R11. Those with one legal value are constants here. The others
are the arguments of the model: a record that State carries and that no step writes, so that a statement about every state
is a statement about every value of every parameter (notes/assumptions/1.md). -/

namespace Sys2Proof

/-- `PARITY_SENSE` (00_scope.md R11, 90_conflicts.md C1). -/
inductive ParitySense where
  | odd
  | even
  deriving DecidableEq, Repr

/-- The parameters that are fixed for one instance of the engine (00_scope.md R11). -/
structure Params where
  /-- `PARITY_SENSE` -/
  paritySense : ParitySense
  /-- `PARITY_RETRY_MAX` -/
  parityRetryMax : Nat
  /-- `CTRL_TIMEOUT_ITERS` -/
  ctrlTimeoutIters : Nat
  /-- `STALL_POLL_MAX` -/
  stallPollMax : Nat
  /-- `TXQ_CAP` -/
  txqCap : Nat
  /-- `RXQ_CAP` -/
  rxqCap : Nat
  /-- `CTRLQ_CAP` -/
  ctrlqCap : Nat
  /-- `TX_MAX_FRAME` -/
  txMaxFrame : Nat
  /-- `RX_MAX_FRAME` -/
  rxMaxFrame : Nat
  deriving DecidableEq, Repr

/-- The legal values of the parameters (00_scope.md R11, column "legal values"). -/
abbrev Params.Legal (p : Params) : Prop :=
  1 ≤ p.ctrlTimeoutIters ∧ 1 ≤ p.stallPollMax ∧ 1 ≤ p.txqCap ∧ 1 ≤ p.rxqCap ∧
    1 ≤ p.txMaxFrame ∧ p.txMaxFrame ≤ 65535 ∧ 1 ≤ p.rxMaxFrame

/-- `MAX_REGS`, whose one legal value is 128 (00_scope.md R11, 30_encoding.md R113). -/
def Config.maxRegs : Nat := 128

/-- `TC6_REV` (00_scope.md R2, R11): the revision whose layouts the codec follows. No rule reads it. -/
def Config.tc6Rev : String := "1.1"

end Sys2Proof
end

