-- ==== Sys2Proof/Machine/Bytes.lean ====
section
/-! DEFINITION. Byte strings: the byte order of words, slices of buffers, and the packing of frame bytes into descriptor
words (00_scope.md R14, R15; 20_memory.md R83 to R86; 30_encoding.md R152). -/

namespace Sys2Proof.Machine

/-- `BE32(w)`: the four bytes of a word, most significant first (00_scope.md R14, 20_memory.md R83). -/
def toBE32 (w : Word32) : List Byte :=
  [w.extractLsb' 24 8, w.extractLsb' 16 8, w.extractLsb' 8 8, w.extractLsb' 0 8]

/-- `be32(b)`, the inverse on strings of four bytes (00_scope.md R14). No rule applies it to another length. -/
def be32 : List Byte → Word32
  | [a, b, c, d] => a ++ b ++ c ++ d
  | _ => 0#32

/-- `zeros(n)` (00_scope.md R14). -/
def zeros (n : Nat) : List Byte := List.replicate n 0#8

/-- `MemRead(buf, off, n)`: the n bytes of a buffer from an offset (00_scope.md R15). -/
def memRead (buf : List Byte) (off n : Nat) : List Byte := (buf.drop off).take n

/-- `b[i .. j]`: bytes i to j inclusive, empty when j < i (00_scope.md R14). -/
def bytesFromTo (b : List Byte) (i j : Nat) : List Byte := memRead b i (j + 1 - i)

/-- `ceil(n / 4)`: the number of words that carry n frame bytes (30_encoding.md R152). -/
def wordsFor (n : Nat) : Nat := (n + 3) / 4

/-- Frame bytes packed four to a word, the first in bits 31:24, with zero pad bytes (20_memory.md R86, 30_encoding.md R155). -/
def pack : List Byte → List Word32
  | [] => []
  | [a] => [a ++ 0#8 ++ 0#8 ++ 0#8]
  | [a, b] => [a ++ b ++ 0#8 ++ 0#8]
  | [a, b, c] => [a ++ b ++ c ++ 0#8]
  | a :: b :: c :: d :: rest => (a ++ b ++ c ++ d) :: pack rest

/-- The first n frame bytes that a list of words carries; the pad bytes are ignored (30_encoding.md R152). -/
def unpack (n : Nat) (ws : List Word32) : List Byte := (ws.flatMap toBE32).take n

end Sys2Proof.Machine
end

