-- ==== Sys2Proof/Machine/Codec.lean ====
section
/-! DEFINITION. The wire codec and parity checker (40_wire_codec.md): pure functions over words and 4-byte strings, with the
field layouts of 30_encoding.md R111, R115 and R117. -/

namespace Sys2Proof.Machine

/-- The number of 1 bits in `w[31:1]` (40_wire_codec.md R170). -/
def onesAboveParity (w : Word32) : Nat := (List.range 31).countP (fun i => w.getLsbD (i + 1))

/-- `parity_bit(w)`: the value bit 0 must hold (40_wire_codec.md R170). -/
def parityBit (sense : ParitySense) (w : Word32) : Bit :=
  match sense with
  | .odd => if onesAboveParity w % 2 = 0 then 1#1 else 0#1
  | .even => if onesAboveParity w % 2 = 0 then 0#1 else 1#1

/-- `parity_ok(w)` (40_wire_codec.md R171). -/
def parityOk (sense : ParitySense) (w : Word32) : Bool := w.extractLsb' 0 1 == parityBit sense w

/-- `compute_parity(b)` of a 4-byte string; not defined on another length (40_wire_codec.md R179). -/
def computeParity (sense : ParitySense) (b : List Byte) : Option Bit :=
  if b.length = 4 then some (parityBit sense (be32 b)) else none

/-- A header `h0` with its parity bit set in bit 0 (40_wire_codec.md R172 to R174, R181). -/
def withParity (sense : ParitySense) (h0 : Word32) : Word32 := h0 ||| (parityBit sense h0).setWidth 32

/-- The bits of a control header or control echo (30_encoding.md R111, R122). -/
def ctrlWord (dnc hdrb wnr aid : Bit) (mms : BitVec 4) (addr : BitVec 16) (len : BitVec 7) (p : Bit) : Word32 :=
  dnc ++ hdrb ++ wnr ++ aid ++ mms ++ addr ++ len ++ p

/-- `encode_ctrl_header(op, aid, mms, addr, n)`, `wnr` being 1 for a write (40_wire_codec.md R172). -/
def encodeCtrlHeader (sense : ParitySense) (wnr aid : Bit) (mms : BitVec 4) (addr : BitVec 16) (n : Nat) : Word32 :=
  withParity sense (ctrlWord 0#1 0#1 wnr aid mms addr (BitVec.ofNat 7 (n - 1)) 0#1)

/-- The bits of the data header of a chunk that carries frame data, with the fixed choices of 30_encoding.md R124
(30_encoding.md R115, 40_wire_codec.md R173). -/
def dataWord (sv ev : Bit) (ebo : BitVec 6) (p : Bit) : Word32 :=
  1#1 ++ 0#1 ++ 0#1 ++ 0#5 ++ 0#2 ++ 1#1 ++ sv ++ 0#4 ++ 0#1 ++ ev ++ ebo ++ 0#2 ++ 0#5 ++ p

/-- `encode_data_header(sv, ev, end_count)` (40_wire_codec.md R173). -/
def encodeDataHeader (sense : ParitySense) (sv ev : Bit) (endCount : Nat) : Word32 :=
  withParity sense (dataWord sv ev (if ev = 1#1 then BitVec.ofNat 6 (endCount - 1) else 0#6) 0#1)

/-- The bits of a credit poll header (30_encoding.md R126). -/
def pollWord (p : Bit) : Word32 := 1#1 ++ 0#30 ++ p

/-- `poll_header()` (40_wire_codec.md R174). -/
def pollHeader (sense : ParitySense) : Word32 := withParity sense (pollWord 0#1)

/-- A decoded data footer (40_wire_codec.md R175). -/
structure Footer where
  exst : Bit
  hdrb : Bit
  sync : Bit
  rca : BitVec 5
  vs : BitVec 2
  dv : Bit
  sv : Bit
  swo : BitVec 4
  fd : Bit
  ev : Bit
  ebo : BitVec 6
  rtsa : Bit
  rtsp : Bit
  txc : BitVec 5
  deriving DecidableEq, Repr

/-- The three outcomes of decoding a data footer (40_wire_codec.md R175, R178). -/
inductive FooterResult where
  | valid (f : Footer)
  | parity
  | malformed
  deriving DecidableEq, Repr

/-- The bits of a data footer with parity bit `p` (30_encoding.md R117). -/
def footerWord (f : Footer) (p : Bit) : Word32 :=
  f.exst ++ f.hdrb ++ f.sync ++ f.rca ++ f.vs ++ f.dv ++ f.sv ++ f.swo ++ f.fd ++ f.ev ++ f.ebo ++ f.rtsa ++ f.rtsp ++
    f.txc ++ p

/-- The fields of a word read as a data footer (40_wire_codec.md R175). -/
def footerFields (w : Word32) : Footer :=
  { exst := w.extractLsb' 31 1, hdrb := w.extractLsb' 30 1, sync := w.extractLsb' 29 1, rca := w.extractLsb' 24 5,
    vs := w.extractLsb' 22 2, dv := w.extractLsb' 21 1, sv := w.extractLsb' 20 1, swo := w.extractLsb' 16 4,
    fd := w.extractLsb' 15 1, ev := w.extractLsb' 14 1, ebo := w.extractLsb' 8 6, rtsa := w.extractLsb' 7 1,
    rtsp := w.extractLsb' 6 1, txc := w.extractLsb' 1 5 }

/-- M1: frame marks without frame data (30_encoding.md R131). -/
def Footer.m1 (f : Footer) : Bool := f.dv == 0#1 && (f.sv == 1#1 || f.ev == 1#1)

/-- M2: the start offset lies outside the payload (30_encoding.md R131). -/
def Footer.m2 (width : Nat) (f : Footer) : Bool := f.sv == 1#1 && decide (width ≤ 4 * f.swo.toNat)

/-- M3: the end offset lies outside the payload (30_encoding.md R131). -/
def Footer.m3 (width : Nat) (f : Footer) : Bool := f.ev == 1#1 && decide (width ≤ f.ebo.toNat)

/-- A footer is malformed when one of M1 to M3 holds (30_encoding.md R131). -/
def Footer.malformed (width : Nat) (f : Footer) : Bool := f.m1 || f.m2 width || f.m3 width

/-- `decode_footer(b)` with payload width `width` (40_wire_codec.md R175). -/
def decodeFooter (sense : ParitySense) (width : Nat) (b : List Byte) : FooterResult :=
  if b.length ≠ 4 then .malformed
  else if parityOk sense (be32 b) = false then .parity
  else if (footerFields (be32 b)).malformed width then .malformed
  else .valid (footerFields (be32 b))

/-- `encode_footer(f)`, the remote's encoder (40_wire_codec.md R181). -/
def encodeFooter (sense : ParitySense) (f : Footer) : List Byte := toBE32 (withParity sense (footerWord f 0#1))

/-- A decoded control echo (40_wire_codec.md R176). -/
structure Echo where
  dnc : Bit
  hdrb : Bit
  wnr : Bit
  aid : Bit
  mms : BitVec 4
  addr : BitVec 16
  len : BitVec 7
  deriving DecidableEq, Repr

/-- The outcomes of decoding a control echo (40_wire_codec.md R176). -/
inductive EchoResult where
  | echo (e : Echo)
  | echoParity
  | echoBad
  deriving DecidableEq, Repr

/-- The fields of a word read as a control echo (30_encoding.md R122). -/
def echoFields (w : Word32) : Echo :=
  { dnc := w.extractLsb' 31 1, hdrb := w.extractLsb' 30 1, wnr := w.extractLsb' 29 1, aid := w.extractLsb' 28 1,
    mms := w.extractLsb' 24 4, addr := w.extractLsb' 8 16, len := w.extractLsb' 1 7 }

/-- `decode_echo(b)` (40_wire_codec.md R176). -/
def decodeEcho (sense : ParitySense) (b : List Byte) : EchoResult :=
  if b.length ≠ 4 then .echoBad
  else if parityOk sense (be32 b) = false then .echoParity
  else .echo (echoFields (be32 b))

/-- A decoded data header (40_wire_codec.md R180). -/
structure DataHeader where
  dnc : Bit
  seq : Bit
  norx : Bit
  vs : BitVec 2
  dv : Bit
  sv : Bit
  swo : BitVec 4
  ev : Bit
  ebo : BitVec 6
  tsc : BitVec 2
  deriving DecidableEq, Repr

/-- The outcomes of decoding a data header (40_wire_codec.md R180). -/
inductive DataHeaderResult where
  | valid (h : DataHeader)
  | parity
  | malformed
  deriving DecidableEq, Repr

/-- The fields of a word read as a data header; the reserved bits are not returned (40_wire_codec.md R180). -/
def dataHeaderFields (w : Word32) : DataHeader :=
  { dnc := w.extractLsb' 31 1, seq := w.extractLsb' 30 1, norx := w.extractLsb' 29 1, vs := w.extractLsb' 22 2,
    dv := w.extractLsb' 21 1, sv := w.extractLsb' 20 1, swo := w.extractLsb' 16 4, ev := w.extractLsb' 14 1,
    ebo := w.extractLsb' 8 6, tsc := w.extractLsb' 6 2 }

/-- `decode_data_header(b)`, a test receiver's decoder: the engine never receives a data header (40_wire_codec.md R180). -/
def decodeDataHeader (sense : ParitySense) (b : List Byte) : DataHeaderResult :=
  if b.length ≠ 4 then .malformed
  else if parityOk sense (be32 b) = false then .parity
  else .valid (dataHeaderFields (be32 b))

end Sys2Proof.Machine
end

