-- ==== Sys2Proof/Syntax.lean ====
section
/-! DEFINITION. The instructions: one constructor for each row of spec/opcode_table.json. The ten host commands carry the
operands of their descriptors (30_encoding.md R152); the twelve wire words carry the fields of the 32-bit word
(30_encoding.md R111, R115, R117), the parity bit `P` among them, since a word with wrong parity has an effect of its own. -/

namespace Sys2Proof

/-- The fields of a data footer other than `DV`, `SV` and `EV`, which tell the five footer rows of the table apart
(30_encoding.md R117). -/
structure FooterBits where
  exst : Bit
  hdrb : Bit
  sync : Bit
  rca : BitVec 5
  vs : BitVec 2
  swo : BitVec 4
  fd : Bit
  ebo : BitVec 6
  rtsa : Bit
  rtsp : Bit
  txc : BitVec 5
  p : Bit
  deriving DecidableEq, Repr

/-- The instructions of the engine (00_scope.md R3, spec/opcode_table.json). -/
inductive Instr where
  /-- `INIT w, za, tscap` (45_lifecycle_status.md R350) -/
  | init (tscap za : Bit) (wcode : BitVec 2)
  /-- `SHUTDOWN` (45_lifecycle_status.md R351) -/
  | shutdown
  /-- `REG_READ mms, addr, count[, aid]` (42_control_transactions.md R221) -/
  | regRead (aid : Bit) (mms : BitVec 4) (addr : BitVec 16) (count : BitVec 8)
  /-- `REG_WRITE mms, addr, values[, aid]` (42_control_transactions.md R222) -/
  | regWrite (aid : Bit) (mms : BitVec 4) (addr : BitVec 16) (vals : List Word32)
  /-- `TX_ENQUEUE frame` (43_data_framer.md R260) -/
  | txEnqueue (frame : List Byte)
  /-- `RX_POLL` (43_data_framer.md R283) -/
  | rxPoll
  /-- `TS_ENABLE` (45_lifecycle_status.md R352) -/
  | tsEnable
  /-- `TS_DISABLE` (45_lifecycle_status.md R353) -/
  | tsDisable
  /-- `STATUS_READ` (45_lifecycle_status.md R354) -/
  | statusRead
  /-- `STATUS_CLEAR mask` (45_lifecycle_status.md R355) -/
  | statusClear (mask : BitVec 16)
  /-- the outbound control header of a register read (30_encoding.md R111) -/
  | ctrlHdrRd (aid : Bit) (mms : BitVec 4) (addr : BitVec 16) (len : BitVec 7) (p : Bit)
  /-- the outbound control header of a register write (30_encoding.md R111) -/
  | ctrlHdrWr (aid : Bit) (mms : BitVec 4) (addr : BitVec 16) (len : BitVec 7) (p : Bit)
  /-- the control echo (30_encoding.md R122), any word but the two no-reply words -/
  | ctrlEcho (dnc hdrb wnr aid : Bit) (mms : BitVec 4) (addr : BitVec 16) (len : BitVec 7) (p : Bit)
  /-- the no-reply word of all zeros (42_control_transactions.md R227) -/
  | ctrlEchoNoreply0
  /-- the no-reply word of all ones (42_control_transactions.md R227) -/
  | ctrlEchoNoreply1
  /-- the credit poll header (30_encoding.md R126); `P` is 0 under `PARITY_SENSE = ODD` and 1 under `EVEN` -/
  | dataPoll (p : Bit)
  /-- the data header of a chunk that carries frame data (30_encoding.md R115, 40_wire_codec.md R173) -/
  | dataHdr (sv ev : Bit) (ebo : BitVec 6) (p : Bit)
  /-- a data footer with `DV = 0` (43_data_framer.md R271) -/
  | ftrNodata (sv ev : Bit) (b : FooterBits)
  /-- a data footer with `DV = 1`, `SV = 0`, `EV = 0` (43_data_framer.md R275) -/
  | ftrCont (b : FooterBits)
  /-- a data footer with `DV = 1`, `SV = 1`, `EV = 0` (43_data_framer.md R274) -/
  | ftrSof (b : FooterBits)
  /-- a data footer with `DV = 1`, `SV = 0`, `EV = 1` (43_data_framer.md R273) -/
  | ftrEof (b : FooterBits)
  /-- a data footer with `DV = 1`, `SV = 1`, `EV = 1` (43_data_framer.md R272, R273) -/
  | ftrSofEof (b : FooterBits)
  deriving DecidableEq, Repr

end Sys2Proof
end

