-- ==== Sys2Proof/WellFormed.lean ====
section
/-! DEFINITION. Which instructions are well formed: the operands that a descriptor can carry and that 30_encoding.md R153
admits at some legal value of the parameters (the engine's own `TX_MAX_FRAME` is checked when the command runs), and the
echo words that are not one of the two no-reply rows. -/

namespace Sys2Proof

/-- The `MASK` bits that 45_lifecycle_status.md R355 reserves: 5 to 7 and 12 to 15. -/
def reservedMask : BitVec 16 := 0xF0E0#16

/-- An instruction with operands that 30_encoding.md R153 (V4 to V6) admits at some legal value of the parameters. -/
def Instr.wf : Instr → Bool
  | .init _ _ _ => true
  | .shutdown => true
  | .regRead _ _ _ count => decide (1 ≤ count.toNat) && decide (count.toNat ≤ Config.maxRegs)
  | .regWrite _ _ _ vals => decide (1 ≤ vals.length) && decide (vals.length ≤ Config.maxRegs)
  | .txEnqueue frame => decide (1 ≤ frame.length) && decide (frame.length ≤ 65535)
  | .rxPoll => true
  | .tsEnable => true
  | .tsDisable => true
  | .statusRead => true
  | .statusClear mask => mask &&& reservedMask == 0#16
  | .ctrlHdrRd _ _ _ _ _ => true
  | .ctrlHdrWr _ _ _ _ _ => true
  | .ctrlEcho dnc hdrb wnr aid mms addr len p =>
    (dnc ++ hdrb ++ wnr ++ aid ++ mms ++ addr ++ len ++ p : BitVec 32) != 0#32 &&
      (dnc ++ hdrb ++ wnr ++ aid ++ mms ++ addr ++ len ++ p : BitVec 32) != 0xFFFFFFFF#32
  | .ctrlEchoNoreply0 => true
  | .ctrlEchoNoreply1 => true
  | .dataPoll _ => true
  | .dataHdr _ _ _ _ => true
  | .ftrNodata _ _ _ => true
  | .ftrCont _ => true
  | .ftrSof _ => true
  | .ftrEof _ => true
  | .ftrSofEof _ => true

/-- `Instr.wf` as a proposition. -/
abbrev Instr.WellFormed (i : Instr) : Prop := i.wf = true

end Sys2Proof
end

