-- ==== Sys2Proof/Decode.lean ====
section
/-! DEFINITION. Decoding, total on every input and rejecting by name, and after it the encoder. The engine reads words at
four places (notes/assumptions/6.md): descriptors at the host command port (30_encoding.md R150 to R154), the header the
scheduler sends (R111, R115, R126), the control echo (R122, R129) and the data footer (R117, R125). Which of them a word is
follows from where it stands, never from the word alone (90_conflicts.md C4). -/

namespace Sys2Proof

open Sys2Proof.Machine

/-- Where a word stands. -/
inductive Port where
  /-- a descriptor at the host command port -/
  | command
  /-- the header of the exchange that the scheduler issues -/
  | outbound
  /-- inbound bytes 4 to 7 of a control exchange -/
  | ctrlIn
  /-- the last four inbound bytes of a data or poll exchange -/
  | dataIn
  deriving DecidableEq, Repr

/-- Why words are not an instruction. -/
inductive DecodeError where
  /-- a descriptor without words has no opcode (45_lifecycle_status.md R361) -/
  | emptyDescriptor
  /-- V1: an opcode outside 30_encoding.md R151 -/
  | illegalOpcode
  /-- V2: a field that 30_encoding.md R152 marks 0 is not zero -/
  | reservedField
  /-- V3: the number of words is not the total of 30_encoding.md R152 -/
  | wrongLength
  /-- V6: a reserved `MASK` bit is set (45_lifecycle_status.md R355) -/
  | reservedMaskBit
  /-- a word that is no outbound header of 30_encoding.md R111, R115 and R126 (R132) -/
  | notAHeader
  /-- a wire word is exactly one word (30_encoding.md R110) -/
  | notOneWord
  deriving DecidableEq, Repr

/-- The opcodes of 30_encoding.md R151. -/
def opcInit : BitVec 8 := 0x01#8
/-- 30_encoding.md R151 -/
def opcShutdown : BitVec 8 := 0x02#8
/-- 30_encoding.md R151 -/
def opcRegRead : BitVec 8 := 0x10#8
/-- 30_encoding.md R151 -/
def opcRegWrite : BitVec 8 := 0x11#8
/-- 30_encoding.md R151 -/
def opcTxEnqueue : BitVec 8 := 0x20#8
/-- 30_encoding.md R151 -/
def opcRxPoll : BitVec 8 := 0x21#8
/-- 30_encoding.md R151 -/
def opcTsEnable : BitVec 8 := 0x30#8
/-- 30_encoding.md R151 -/
def opcTsDisable : BitVec 8 := 0x31#8
/-- 30_encoding.md R151 -/
def opcStatusRead : BitVec 8 := 0x40#8
/-- 30_encoding.md R151 -/
def opcStatusClear : BitVec 8 := 0x41#8

/-- The legal opcodes (30_encoding.md R151). -/
def legalOpcodes : List (BitVec 8) :=
  [opcInit, opcShutdown, opcRegRead, opcRegWrite, opcTxEnqueue, opcRxPoll, opcTsEnable, opcTsDisable, opcStatusRead,
    opcStatusClear]

/-- `OPC` of word 0 (30_encoding.md R150). -/
def opcodeOf (w : Word32) : BitVec 8 := w.extractLsb' 24 8

/-- A command of one word whose bits 23:0 are 0 (30_encoding.md R152). -/
def decodeBare (i : Instr) (w0 : Word32) (rest : List Word32) : Except DecodeError Instr :=
  if w0.extractLsb' 0 24 ≠ 0#24 then .error .reservedField
  else if rest ≠ [] then .error .wrongLength
  else .ok i

/-- `INIT` (30_encoding.md R152). -/
def decodeInit (w0 : Word32) (rest : List Word32) : Except DecodeError Instr :=
  if w0.extractLsb' 5 19 ≠ 0#19 ∨ w0.extractLsb' 2 1 ≠ 0#1 then .error .reservedField
  else if rest ≠ [] then .error .wrongLength
  else .ok (.init (w0.extractLsb' 4 1) (w0.extractLsb' 3 1) (w0.extractLsb' 0 2))

/-- `REG_READ` (30_encoding.md R152). -/
def decodeRegRead (w0 : Word32) (rest : List Word32) : Except DecodeError Instr :=
  match rest with
  | [] => .error .wrongLength
  | w1 :: vals =>
    if w0.extractLsb' 20 3 ≠ 0#3 ∨ w1.extractLsb' 8 24 ≠ 0#24 then .error .reservedField
    else if vals ≠ [] then .error .wrongLength
    else .ok (.regRead (w0.extractLsb' 23 1) (w0.extractLsb' 16 4) (w0.extractLsb' 0 16) (w1.extractLsb' 0 8))

/-- `REG_WRITE` (30_encoding.md R152). -/
def decodeRegWrite (w0 : Word32) (rest : List Word32) : Except DecodeError Instr :=
  match rest with
  | [] => .error .wrongLength
  | w1 :: vals =>
    if w0.extractLsb' 20 3 ≠ 0#3 ∨ w1.extractLsb' 8 24 ≠ 0#24 then .error .reservedField
    else if vals.length ≠ (w1.extractLsb' 0 8).toNat then .error .wrongLength
    else .ok (.regWrite (w0.extractLsb' 23 1) (w0.extractLsb' 16 4) (w0.extractLsb' 0 16) vals)

/-- `TX_ENQUEUE` (30_encoding.md R152). -/
def decodeTxEnqueue (w0 : Word32) (rest : List Word32) : Except DecodeError Instr :=
  match rest with
  | [] => .error .wrongLength
  | w1 :: ws =>
    if w0.extractLsb' 0 24 ≠ 0#24 ∨ w1.extractLsb' 16 16 ≠ 0#16 then .error .reservedField
    else if ws.length ≠ wordsFor (w1.extractLsb' 0 16).toNat then .error .wrongLength
    else .ok (.txEnqueue (unpack (w1.extractLsb' 0 16).toNat ws))

/-- `STATUS_CLEAR` (30_encoding.md R152, R153 V6). -/
def decodeStatusClear (w0 : Word32) (rest : List Word32) : Except DecodeError Instr :=
  if w0.extractLsb' 16 8 ≠ 0#8 then .error .reservedField
  else if w0.extractLsb' 0 16 &&& reservedMask ≠ 0#16 then .error .reservedMaskBit
  else if rest ≠ [] then .error .wrongLength
  else .ok (.statusClear (w0.extractLsb' 0 16))

/-- Decoding a descriptor: checks V1, V2, V3 and V6 of 30_encoding.md R153. V4 and V5 compare an operand with a parameter
and are made by the command's meaning, which answers the same `INVALID` (notes/assumptions/10.md). -/
def decodeDescriptor (d : List Word32) : Except DecodeError Instr :=
  match d with
  | [] => .error .emptyDescriptor
  | w0 :: rest =>
    if opcodeOf w0 = opcInit then decodeInit w0 rest
    else if opcodeOf w0 = opcShutdown then decodeBare .shutdown w0 rest
    else if opcodeOf w0 = opcRegRead then decodeRegRead w0 rest
    else if opcodeOf w0 = opcRegWrite then decodeRegWrite w0 rest
    else if opcodeOf w0 = opcTxEnqueue then decodeTxEnqueue w0 rest
    else if opcodeOf w0 = opcRxPoll then decodeBare .rxPoll w0 rest
    else if opcodeOf w0 = opcTsEnable then decodeBare .tsEnable w0 rest
    else if opcodeOf w0 = opcTsDisable then decodeBare .tsDisable w0 rest
    else if opcodeOf w0 = opcStatusRead then decodeBare .statusRead w0 rest
    else if opcodeOf w0 = opcStatusClear then decodeStatusClear w0 rest
    else .error .illegalOpcode

/-- The opcode a response repeats: the descriptor's when it is legal, else 0x00 (30_encoding.md R155,
45_lifecycle_status.md R361). -/
def responseOpcode (d : List Word32) : BitVec 8 :=
  match d with
  | [] => 0#8
  | w0 :: _ => if opcodeOf w0 ∈ legalOpcodes then opcodeOf w0 else 0#8

/-- Decoding an outbound header (30_encoding.md R111, R115, R126, R132). -/
def decodeOutbound (w : Word32) : Except DecodeError Instr :=
  if w.extractLsb' 29 3 = 0b000#3 then
    .ok (.ctrlHdrRd (w.extractLsb' 28 1) (w.extractLsb' 24 4) (w.extractLsb' 8 16) (w.extractLsb' 1 7) (w.extractLsb' 0 1))
  else if w.extractLsb' 29 3 = 0b001#3 then
    .ok (.ctrlHdrWr (w.extractLsb' 28 1) (w.extractLsb' 24 4) (w.extractLsb' 8 16) (w.extractLsb' 1 7) (w.extractLsb' 0 1))
  else if w.extractLsb' 1 31 = 0x40000000#31 then .ok (.dataPoll (w.extractLsb' 0 1))
  else if w &&& 0xFFEF80FE#32 = 0x80200000#32 then
    .ok (.dataHdr (w.extractLsb' 20 1) (w.extractLsb' 14 1) (w.extractLsb' 8 6) (w.extractLsb' 0 1))
  else .error .notAHeader

/-- Decoding a control echo: every word is one (30_encoding.md R122, 42_control_transactions.md R227). -/
def decodeCtrlIn (w : Word32) : Instr :=
  if w = 0#32 then .ctrlEchoNoreply0
  else if w = 0xFFFFFFFF#32 then .ctrlEchoNoreply1
  else .ctrlEcho (w.extractLsb' 31 1) (w.extractLsb' 30 1) (w.extractLsb' 29 1) (w.extractLsb' 28 1) (w.extractLsb' 24 4)
    (w.extractLsb' 8 16) (w.extractLsb' 1 7) (w.extractLsb' 0 1)

/-- The fields of a footer that do not choose its row (30_encoding.md R117). -/
def footerBitsOf (w : Word32) : FooterBits :=
  { exst := w.extractLsb' 31 1, hdrb := w.extractLsb' 30 1, sync := w.extractLsb' 29 1, rca := w.extractLsb' 24 5,
    vs := w.extractLsb' 22 2, swo := w.extractLsb' 16 4, fd := w.extractLsb' 15 1, ebo := w.extractLsb' 8 6,
    rtsa := w.extractLsb' 7 1, rtsp := w.extractLsb' 6 1, txc := w.extractLsb' 1 5, p := w.extractLsb' 0 1 }

/-- Decoding a data footer: the row is chosen by `DV`, `SV` and `EV` (30_encoding.md R117, 43_data_framer.md R270). -/
def decodeDataIn (w : Word32) : Instr :=
  if w.extractLsb' 21 1 = 0#1 then .ftrNodata (w.extractLsb' 20 1) (w.extractLsb' 14 1) (footerBitsOf w)
  else if w.extractLsb' 20 1 = 0#1 then
    if w.extractLsb' 14 1 = 0#1 then .ftrCont (footerBitsOf w) else .ftrEof (footerBitsOf w)
  else if w.extractLsb' 14 1 = 0#1 then .ftrSof (footerBitsOf w)
  else .ftrSofEof (footerBitsOf w)

/-- The decoder: what the words that stand at a port are. -/
def decode (port : Port) (ws : List Word32) : Except DecodeError Instr :=
  match port with
  | .command => decodeDescriptor ws
  | .outbound => match ws with
    | [w] => decodeOutbound w
    | _ => .error .notOneWord
  | .ctrlIn => match ws with
    | [w] => .ok (decodeCtrlIn w)
    | _ => .error .notOneWord
  | .dataIn => match ws with
    | [w] => .ok (decodeDataIn w)
    | _ => .error .notOneWord

/-- The port at which an instruction's words stand. -/
def Instr.port : Instr → Port
  | .init _ _ _ => .command
  | .shutdown => .command
  | .regRead _ _ _ _ => .command
  | .regWrite _ _ _ _ => .command
  | .txEnqueue _ => .command
  | .rxPoll => .command
  | .tsEnable => .command
  | .tsDisable => .command
  | .statusRead => .command
  | .statusClear _ => .command
  | .ctrlHdrRd _ _ _ _ _ => .outbound
  | .ctrlHdrWr _ _ _ _ _ => .outbound
  | .ctrlEcho _ _ _ _ _ _ _ _ => .ctrlIn
  | .ctrlEchoNoreply0 => .ctrlIn
  | .ctrlEchoNoreply1 => .ctrlIn
  | .dataPoll _ => .outbound
  | .dataHdr _ _ _ _ => .outbound
  | .ftrNodata _ _ _ => .dataIn
  | .ftrCont _ => .dataIn
  | .ftrSof _ => .dataIn
  | .ftrEof _ => .dataIn
  | .ftrSofEof _ => .dataIn

/-- The footer that a footer row stands for (30_encoding.md R117). -/
def footerOf (dv sv ev : Bit) (b : FooterBits) : Footer :=
  { exst := b.exst, hdrb := b.hdrb, sync := b.sync, rca := b.rca, vs := b.vs, dv := dv, sv := sv, swo := b.swo, fd := b.fd,
    ev := ev, ebo := b.ebo, rtsa := b.rtsa, rtsp := b.rtsp, txc := b.txc }

/-- The word of a command whose bits 23:0 are 0 (30_encoding.md R152). -/
def bareWord (opc : BitVec 8) : Word32 := opc ++ 0#24

/-- The encoder: the words of an instruction (30_encoding.md R111, R115, R117, R122, R126, R152). -/
def encode : Instr → List Word32
  | .init tscap za wcode => [opcInit ++ 0#19 ++ tscap ++ za ++ 0#1 ++ wcode]
  | .shutdown => [bareWord opcShutdown]
  | .regRead aid mms addr count => [opcRegRead ++ aid ++ 0#3 ++ mms ++ addr, 0#24 ++ count]
  | .regWrite aid mms addr vals => (opcRegWrite ++ aid ++ 0#3 ++ mms ++ addr) :: BitVec.ofNat 32 vals.length :: vals
  | .txEnqueue frame => bareWord opcTxEnqueue :: BitVec.ofNat 32 frame.length :: pack frame
  | .rxPoll => [bareWord opcRxPoll]
  | .tsEnable => [bareWord opcTsEnable]
  | .tsDisable => [bareWord opcTsDisable]
  | .statusRead => [bareWord opcStatusRead]
  | .statusClear mask => [opcStatusClear ++ 0#8 ++ mask]
  | .ctrlHdrRd aid mms addr len p => [ctrlWord 0#1 0#1 0#1 aid mms addr len p]
  | .ctrlHdrWr aid mms addr len p => [ctrlWord 0#1 0#1 1#1 aid mms addr len p]
  | .ctrlEcho dnc hdrb wnr aid mms addr len p => [ctrlWord dnc hdrb wnr aid mms addr len p]
  | .ctrlEchoNoreply0 => [0#32]
  | .ctrlEchoNoreply1 => [0xFFFFFFFF#32]
  | .dataPoll p => [pollWord p]
  | .dataHdr sv ev ebo p => [dataWord sv ev ebo p]
  | .ftrNodata sv ev b => [footerWord (footerOf 0#1 sv ev b) b.p]
  | .ftrCont b => [footerWord (footerOf 1#1 0#1 0#1 b) b.p]
  | .ftrSof b => [footerWord (footerOf 1#1 1#1 0#1 b) b.p]
  | .ftrEof b => [footerWord (footerOf 1#1 0#1 1#1 b) b.p]
  | .ftrSofEof b => [footerWord (footerOf 1#1 1#1 1#1 b) b.p]

/-- The first word of an instruction's words; for a wire word, the word itself. -/
def wireWord (i : Instr) : Word32 := (encode i).headD 0#32

/-- The number of words that word 0 and word 1 announce (30_encoding.md R152, R160). -/
def announcedLength (w0 w1 : Word32) : Nat :=
  if opcodeOf w0 = opcRegRead then 2
  else if opcodeOf w0 = opcRegWrite then 2 + (w1.extractLsb' 0 8).toNat
  else if opcodeOf w0 = opcTxEnqueue then 2 + wordsFor (w1.extractLsb' 0 16).toNat
  else 1

/-- A row of the opcode table laid out as a descriptor: the words of `w`, the first the lowest, then the words of zeros
that the descriptor's announced length asks for. -/
def tableDescriptor (nbits w : Nat) : List Word32 :=
  let ws := (List.range ((nbits + 31) / 32)).map (fun i => BitVec.ofNat 32 (w >>> (32 * i)))
  ws ++ List.replicate (announcedLength (ws.headD 0#32) (ws.getD 1 0#32) - ws.length) 0#32

/-- The wire instruction that a bare word of the opcode table stands for. The table's wire rows overlap, because the engine
tells them apart by where the word stands; here the row that fixes more bits goes first (notes/assumptions/8.md). -/
def decodeTableWire (w : Word32) : Except DecodeError Instr :=
  if w = 0#32 ∨ w = 0xFFFFFFFF#32 then decode .ctrlIn [w]
  else if w.extractLsb' 1 31 = 0x40000000#31 ∨ w &&& 0xFFEF80FE#32 = 0x80200000#32 then decode .outbound [w]
  else if w.extractLsb' 21 1 = 1#1 then decode .dataIn [w]
  else if w.extractLsb' 30 2 = 0b00#2 then decode .outbound [w]
  else if w.extractLsb' 30 2 = 0b01#2 then decode .ctrlIn [w]
  else decode .dataIn [w]

/-- What the decoder reads from a row of the opcode table: a descriptor where it is one, else a wire word. -/
def decodeTable (nbits w : Nat) : Except DecodeError Instr :=
  match decode .command (tableDescriptor nbits w) with
  | .ok i => .ok i
  | .error e => if nbits ≤ 32 then decodeTableWire (BitVec.ofNat 32 w) else .error e

/-- The instruction that the decoder reads from an instruction whose bits are `w`, none where it refuses. -/
def decodeTableWord (nbits w : Nat) : Option Instr :=
  match decodeTable nbits w with
  | .ok i => some i
  | .error _ => none

end Sys2Proof
end

