-- ==== Sys2Proof/Machine/Params.lean ====
section
/-! DEFINITION. The parameter values of the machine that `State.reset` stands for. -/

namespace Sys2Proof.Machine

/-- DESIGN CHOICE (unsafe; notes/assumptions/1.md): the spec gives the OPEN parameters no value, and this record takes those
of parameter set T of 95_test_vectors.md. `PARITY_SENSE = ODD` is the spec's own (00_scope.md R11). -/
def resetParams : Params :=
  { paritySense := .odd, parityRetryMax := 2, ctrlTimeoutIters := 3, stallPollMax := 3, txqCap := 2, rxqCap := 2,
    ctrlqCap := 1, txMaxFrame := 1518, rxMaxFrame := 1518 }

end Sys2Proof.Machine
end

