-- ==== Sys2Proof/Machine/State.lean ====
section
/-! DEFINITION. The state: every element of 10_state.md, the parameters of 00_scope.md R11, and the model's own fields (what
the agents around the engine do next). Plain data, with the state after power-on reset. -/

namespace Sys2Proof.Machine

/-- `phase` (10_state.md R31). -/
inductive Phase where
  | uninit
  | idle
  | exchanging
  | draining
  | stopped
  | failed
  deriving DecidableEq, Repr

/-- `xkind`, the kind of the exchange in flight (10_state.md R32). -/
inductive XKind where
  | none
  | ctrl
  | data
  | poll
  deriving DecidableEq, Repr

/-- `fatal_cause` (10_state.md R36). -/
inductive FatalCause where
  | none
  | linkStalled
  | transportFault
  deriving DecidableEq, Repr

/-- `rxst` (10_state.md R44). -/
inductive RxState where
  | idle
  | asm
  deriving DecidableEq, Repr

/-- The direction of a control transaction (10_state.md R40). -/
inductive TxnOp where
  | rd
  | wr
  deriving DecidableEq, Repr

/-- A control transaction record (10_state.md R40). -/
structure Txn where
  op : TxnOp
  aid : Bit
  mms : BitVec 4
  addr : BitVec 16
  n : Nat
  wvals : List Word32
  hdr : Word32
  caller : Caller
  pfail : Nat
  nrep : Nat
  deriving DecidableEq, Repr

/-- The transmit frame in flight (10_state.md R43). -/
structure TxCur where
  frame : List Byte
  cur : Nat
  hret : Nat
  deriving DecidableEq, Repr

/-- A delivered receive frame with its timestamp flag (10_state.md R45). -/
structure RxFrame where
  bytes : List Byte
  ts : Bool
  deriving DecidableEq, Repr

/-- The status codes of responses (30_encoding.md R156). -/
inductive Status where
  | ok
  | parityError
  | replyMismatch
  | deviceUnreachable
  | linkStalled
  | shutdown
  | busy
  | invalid
  | unsupported
  | notInitialized
  deriving DecidableEq, Repr

/-- The records of the output history (30_encoding.md R157). -/
inductive Indication where
  | resp (caller : Caller) (words : List Word32)
  | xferReq (bytes : List Byte)
  | xferIn (bytes : List Byte)
  | xferFault
  | txDone (frame : List Byte)
  | txUndelivered (frame : List Byte)
  | txAborted (frame : List Byte)
  | rxFrame (bytes : List Byte) (ts : Bool)
  | fatal (cause : FatalCause)
  deriving DecidableEq, Repr

/-- What an agent does next (44_transfer_scheduler.md R310; notes/assumptions/3.md). -/
inductive Event where
  /-- `Cmd(c, d)`: caller `c` brings descriptor `d` to the command port -/
  | cmd (caller : Caller) (d : List Word32)
  /-- `Wake`: a wake pulse -/
  | wake
  /-- the scheduler's turn: `SchedIssue` where it is enabled -/
  | issue
  /-- `XferComplete(in)`: the transport returns an inbound string -/
  | complete (bytes : List Byte)
  /-- `XferFault`: the transport reports a fault -/
  | fault
  deriving DecidableEq, Repr

/-- A descriptor with the identity of its caller (30_encoding.md R150). -/
structure Submission where
  caller : Caller
  words : List Word32
  deriving DecidableEq, Repr

/-- Why the machine stops: the step asked for is one that the spec says is not enabled ("stuck" in
93_implementation_defined.md). Every one is safe: no behaviour the spec gives is lost (notes/assumptions/7.md). -/
inductive Fault where
  /-- A transport step, or an inbound wire word, with no exchange of its kind in flight (44_transfer_scheduler.md R310,
  R318, R321). Raised by the fetch and by the inbound wire words. Safe. -/
  | noExchange
  /-- The inbound string has not the length of the outbound one, which the transport port excludes
  (44_transfer_scheduler.md R318). Raised by the fetch and by the inbound wire words. Safe. -/
  | inboundLength
  /-- An inbound wire word was asked for that does not stand in the inbound string. Raised by the inbound wire words when
  `exec` is applied to an instruction that was not fetched. Safe. -/
  | inboundWord
  /-- An outbound wire word was asked for that the scheduler does not send in this state (44_transfer_scheduler.md R315 to
  R317). Raised by the outbound wire words when `exec` is applied to an instruction that was not fetched, and by the fetch
  when a hand-built slot holds a word that is no header (30_encoding.md R132). Safe. -/
  | notScheduled
  /-- A control exchange is in flight and the slot is empty, which no run reaches (44_transfer_scheduler.md R320). Raised by
  the control echo words. Safe. -/
  | noTransaction
  deriving DecidableEq, Repr

/-- Why an instruction has no meaning. -/
inductive Refusal where
  /-- The instruction is not modelled yet: raised by an arm of `exec`. Safe. -/
  | notModelled (mnemonic : String)
  deriving DecidableEq, Repr

/-- The state of the machine. -/
structure State where
  /-- the parameters (00_scope.md R11); no step writes them -/
  par : Params
  /-- `cfg_wcode` (10_state.md R30) -/
  cfgWcode : BitVec 2
  /-- `cfg_w`, the payload width W in bytes (10_state.md R30) -/
  cfgW : Nat
  /-- `cfg_za` (10_state.md R30) -/
  cfgZa : Bool
  /-- `cfg_tscap` (10_state.md R30) -/
  cfgTscap : Bool
  /-- `phase` (10_state.md R31) -/
  phase : Phase
  /-- `xkind` (10_state.md R32) -/
  xkind : XKind
  /-- `xout` (10_state.md R32) -/
  xout : List Byte
  /-- `xlen` (10_state.md R32) -/
  xlen : Nat
  /-- `irq_pending` (10_state.md R33) -/
  irqPending : Bool
  /-- `fresh_wake` (10_state.md R34) -/
  freshWake : Bool
  /-- `stall_polls` (10_state.md R35) -/
  stallPolls : Nat
  /-- `fatal_cause` (10_state.md R36) -/
  fatalCause : FatalCause
  /-- `txc` (10_state.md R37) -/
  txc : BitVec 5
  /-- `rca` (10_state.md R38) -/
  rca : BitVec 5
  /-- `sync_seen` (10_state.md R39) -/
  syncSeen : Bool
  /-- `slot` (10_state.md R40) -/
  slot : Option Txn
  /-- `ctrlq` (10_state.md R41) -/
  ctrlq : List Txn
  /-- `txq` (10_state.md R42) -/
  txq : List (List Byte)
  /-- `txcur` (10_state.md R43) -/
  txcur : Option TxCur
  /-- `rxst` (10_state.md R44) -/
  rxst : RxState
  /-- `rxbuf` (10_state.md R44) -/
  rxbuf : List Byte
  /-- `rxts` (10_state.md R44) -/
  rxts : Bool
  /-- `rxq` (10_state.md R45) -/
  rxq : List RxFrame
  /-- `st_unsync` (10_state.md R46) -/
  stUnsync : Bool
  /-- `st_exst` (10_state.md R46) -/
  stExst : Bool
  /-- `st_hdrb` (10_state.md R46) -/
  stHdrb : Bool
  /-- `st_unreach` (10_state.md R46) -/
  stUnreach : Bool
  /-- `st_ftrerr` (10_state.md R46) -/
  stFtrerr : Bool
  /-- `ts_en` (10_state.md R47) -/
  tsEn : Bool
  /-- `cnt_rx_drop` (10_state.md R48) -/
  cntRxDrop : BitVec 32
  /-- `cnt_rx_ovf` (10_state.md R48) -/
  cntRxOvf : BitVec 32
  /-- `cnt_ftr_err` (10_state.md R48) -/
  cntFtrErr : BitVec 32
  /-- `cnt_tx_abort` (10_state.md R48) -/
  cntTxAbort : BitVec 32
  /-- `shut_caller` (10_state.md R58) -/
  shutCaller : Option Caller
  /-- the output history, oldest first (10_state.md R49) -/
  history : List Indication
  /-- MODEL: what the agents do next, soonest first (notes/assumptions/3.md) -/
  inputs : List Event
  /-- MODEL: the commands that the port holds outside the engine, oldest first (notes/assumptions/4.md) -/
  held : List Submission
  /-- MODEL: the caller of the descriptor that the port has just accepted (30_encoding.md R150) -/
  portCaller : Caller
  /-- MODEL: the inbound string of the exchange that is completing, else empty (notes/assumptions/6.md) -/
  xin : List Byte
  deriving DecidableEq, Repr

/-- The machine after power-on reset: `phase = UNINIT` (10_state.md R54, 70_reset_and_hazards.md R420). Every other element is
unspecified there and no rule reads it before INIT; the model names its INIT value, DESIGN CHOICE (notes/assumptions/2.md). -/
def State.reset : State :=
  { par := resetParams, cfgWcode := 0#2, cfgW := 8, cfgZa := false, cfgTscap := false, phase := .uninit, xkind := .none,
    xout := [], xlen := 0, irqPending := false, freshWake := false, stallPolls := 0, fatalCause := .none, txc := 0#5,
    rca := 0#5, syncSeen := false, slot := none, ctrlq := [], txq := [], txcur := none, rxst := .idle, rxbuf := [],
    rxts := false, rxq := [], stUnsync := false, stExst := false, stHdrb := false, stUnreach := false, stFtrerr := false,
    tsEn := false, cntRxDrop := 0#32, cntRxOvf := 0#32, cntFtrErr := 0#32, cntTxAbort := 0#32, shutCaller := none,
    history := [], inputs := [], held := [], portCaller := 0, xin := [] }

/-- What a meaning answers. -/
abbrev Result := Host.Outcome State Fault Refusal

end Sys2Proof.Machine
end

