-- ==== Sys2Proof/Machine/Operands.lean ====
section
/-! DEFINITION. The operand forms of the commands: the payload width that `WCODE` selects, the operand checks V4 to V6 of
30_encoding.md R153, one-bit operands, and the transaction record that a REG descriptor's operands make. -/

namespace Sys2Proof.Machine

/-- `[8, 16, 32, 64][wcode]` (30_encoding.md R161, 45_lifecycle_status.md R350). -/
def widthOfCode (wcode : BitVec 2) : Nat := 8 * 2 ^ wcode.toNat

/-- A one-bit operand as a flag. -/
def bitSet (b : Bit) : Bool := b == 1#1

/-- V4: a register count is 1 to `MAX_REGS` (30_encoding.md R153). -/
def countOk (n : Nat) : Bool := decide (1 ≤ n) && decide (n ≤ Config.maxRegs)

/-- V5: a transmit frame has 1 to `TX_MAX_FRAME` bytes (30_encoding.md R153). -/
def frameLenOk (par : Params) (n : Nat) : Bool := decide (1 ≤ n) && decide (n ≤ par.txMaxFrame)

/-- V6: no reserved mask bit is set (30_encoding.md R153, 45_lifecycle_status.md R355). -/
def maskOk (mask : BitVec 16) : Bool := mask &&& reservedMask == 0#16

/-- The direction bit `WNR` (30_encoding.md R111). -/
def TxnOp.wnr : TxnOp → Bit
  | .rd => 0#1
  | .wr => 1#1

/-- The opcode that a transaction's response repeats (30_encoding.md R155). -/
def TxnOp.opc : TxnOp → BitVec 8
  | .rd => opcRegRead
  | .wr => opcRegWrite

/-- `mk_txn` (42_control_transactions.md R220). -/
def mkTxn (sense : ParitySense) (op : TxnOp) (aid : Bit) (mms : BitVec 4) (addr : BitVec 16) (n : Nat)
    (wvals : List Word32) (caller : Caller) : Txn :=
  { op := op, aid := aid, mms := mms, addr := addr, n := n, wvals := wvals,
    hdr := encodeCtrlHeader sense op.wnr aid mms addr n, caller := caller, pfail := 0, nrep := 0 }

end Sys2Proof.Machine
end

