-- ==== Sys2Proof/Machine/Flags.lean ====
section
/-! DEFINITION. Flags, counters and credit: what a footer does to them (41_credit_tracker.md), the status words S0 to S7
(45_lifecycle_status.md R356 to R359) and STATUS_CLEAR's mask (R355). -/

namespace Sys2Proof.Machine

/-- `tx_avail(s)`: transmit data waits (44_transfer_scheduler.md R313). -/
def txAvail (s : State) : Bool := s.txcur.isSome || !s.txq.isEmpty

/-- Credit replacement on a valid footer, and the reset of the stall count when it reports credit
(41_credit_tracker.md R200, R208). -/
def creditReplace (f : Footer) (s : State) : State :=
  { s with txc := f.txc, rca := f.rca, stallPolls := if f.txc = 0#5 then s.stallPolls else 0 }

/-- The sticky flags of a valid footer with `EXST` or `HDRB` (41_credit_tracker.md R212, R213). -/
def latchFooterFlags (f : Footer) (s : State) : State :=
  { s with stExst := s.stExst || bitSet f.exst, stHdrb := s.stHdrb || bitSet f.hdrb }

/-- `unsync`: a valid footer shows the configuration-sync flag fall (41_credit_tracker.md R211). -/
def syncFalls (f : Footer) (s : State) : Bool := s.syncSeen && !bitSet f.sync

/-- The accounting of an invalid footer (41_credit_tracker.md R202). -/
def footerError (s : State) : State := { s with cntFtrErr := s.cntFtrErr + 1#32, stFtrerr := true }

/-- The link stall check after every data or poll completion (41_credit_tracker.md R209). -/
def stallCheck (s : State) : State :=
  if txAvail s = true ∧ s.txc = 0#5 ∧ s.par.stallPollMax ≤ s.stallPolls ∧ s.fatalCause = .none then
    { s with fatalCause := .linkStalled }
  else s

/-- The 3-bit code of `phase` (45_lifecycle_status.md R356). -/
def Phase.code : Phase → BitVec 3
  | .uninit => 0#3
  | .idle => 1#3
  | .exchanging => 2#3
  | .draining => 3#3
  | .stopped => 4#3
  | .failed => 5#3

/-- The 2-bit code of `fatal_cause` (45_lifecycle_status.md R356). -/
def FatalCause.code : FatalCause → BitVec 2
  | .none => 0#2
  | .linkStalled => 1#2
  | .transportFault => 2#2

/-- `min(n, 0xFFFF)` as a 16-bit field (45_lifecycle_status.md R357, R359). -/
def saturate16 (n : Nat) : BitVec 16 := BitVec.ofNat 16 (min n 0xFFFF)

/-- Status word S0 (45_lifecycle_status.md R356). -/
def statusS0 (s : State) : Word32 :=
  0#11 ++ BitVec.ofBool s.stFtrerr ++ BitVec.ofBool s.stUnreach ++ BitVec.ofBool s.stHdrb ++ BitVec.ofBool s.stExst ++
    BitVec.ofBool s.stUnsync ++ 0#1 ++ BitVec.ofBool s.txcur.isSome ++ BitVec.ofBool (s.rxst == .asm) ++ s.cfgWcode ++
    BitVec.ofBool s.cfgTscap ++ BitVec.ofBool s.cfgZa ++ BitVec.ofBool s.tsEn ++ BitVec.ofBool s.syncSeen ++
    BitVec.ofBool s.freshWake ++ BitVec.ofBool s.irqPending ++ s.fatalCause.code ++ s.phase.code

/-- Status word S1 (45_lifecycle_status.md R357). -/
def statusS1 (s : State) : Word32 := saturate16 s.stallPolls ++ 0#3 ++ s.rca ++ 0#3 ++ s.txc

/-- Status word S6 (45_lifecycle_status.md R359). -/
def statusS6 (s : State) : Word32 := saturate16 s.rxq.length ++ saturate16 s.txq.length

/-- Status word S7 (45_lifecycle_status.md R359). -/
def statusS7 (s : State) : Word32 := saturate16 s.ctrlq.length ++ 0#15 ++ BitVec.ofBool s.slot.isSome

/-- The status words S0 to S7; S2 to S5 are the counters (45_lifecycle_status.md R354, R356 to R359). -/
def statusWords (s : State) : List Word32 :=
  [statusS0 s, statusS1 s, s.cntRxDrop, s.cntRxOvf, s.cntFtrErr, s.cntTxAbort, statusS6 s, statusS7 s]

/-- A flag after STATUS_CLEAR: cleared where its mask bit is set (45_lifecycle_status.md R355). -/
def clearFlag (mask : BitVec 16) (i : Nat) (flag : Bool) : Bool := flag && !mask.getLsbD i

/-- A counter after STATUS_CLEAR: cleared where its mask bit is set (45_lifecycle_status.md R355). -/
def clearCounter (mask : BitVec 16) (i : Nat) (cnt : BitVec 32) : BitVec 32 := if mask.getLsbD i then 0#32 else cnt

/-- The sticky flags and counters that a mask selects are set to 0 (45_lifecycle_status.md R355). -/
def clearStatus (mask : BitVec 16) (s : State) : State :=
  { s with
    stUnsync := clearFlag mask 0 s.stUnsync
    stExst := clearFlag mask 1 s.stExst
    stHdrb := clearFlag mask 2 s.stHdrb
    stUnreach := clearFlag mask 3 s.stUnreach
    stFtrerr := clearFlag mask 4 s.stFtrerr
    cntRxDrop := clearCounter mask 8 s.cntRxDrop
    cntRxOvf := clearCounter mask 9 s.cntRxOvf
    cntFtrErr := clearCounter mask 10 s.cntFtrErr
    cntTxAbort := clearCounter mask 11 s.cntTxAbort }

end Sys2Proof.Machine
end

