-- ==== Sys2Proof/Machine/Ops.lean ====
section
/-! DEFINITION. The operations that the meanings share: responses and indications (30_encoding.md R155 to R157), the phase
table of commands (45_lifecycle_status.md R360), the receive frame in progress (43_data_framer.md R276 to R279), teardown,
entering `FAILED` and draining (44_transfer_scheduler.md R322 to R324), and the two ends of an exchange (R316, R318, R321).
The engine has no trap (60_exceptions.md R395): entering `FAILED` is its one device-fatal entry, and SHUTDOWN then INIT the
way out of it (R397). -/

namespace Sys2Proof.Machine

/-- `emit E`: an indication is appended to the output history (00_scope.md R15). -/
def State.emit (s : State) (e : Indication) : State := { s with history := s.history ++ [e] }

/-- The number of a status code (30_encoding.md R156). -/
def Status.code : Status → BitVec 8
  | .ok => 0x00#8
  | .parityError => 0x01#8
  | .replyMismatch => 0x02#8
  | .deviceUnreachable => 0x03#8
  | .linkStalled => 0x04#8
  | .shutdown => 0x05#8
  | .busy => 0x06#8
  | .invalid => 0x07#8
  | .unsupported => 0x08#8
  | .notInitialized => 0x09#8

/-- The words of a response; only an `OK` response has data words (30_encoding.md R155). -/
def responseWords (opc : BitVec 8) (code : Status) (data : List Word32) : List Word32 :=
  (opc ++ 0#16 ++ code.code) :: (if code = .ok then data else [])

/-- The indication `RESP(c, words)` (30_encoding.md R155, R157). -/
def respondInd (c : Caller) (opc : BitVec 8) (code : Status) (data : List Word32) : Indication :=
  .resp c (responseWords opc code data)

/-- `respond(c, code, data)` for a command with opcode `opc` (00_scope.md R15, 30_encoding.md R155). -/
def State.respond (s : State) (c : Caller) (opc : BitVec 8) (code : Status) (data : List Word32) : State :=
  s.emit (respondInd c opc code data)

/-- A response to the caller whose descriptor the port has just accepted. -/
def State.answer (s : State) (opc : BitVec 8) (code : Status) (data : List Word32) : State :=
  s.respond s.portCaller opc code data

/-- The code of a fatal cause: `LINK_STALLED` after a stall, else `DEVICE_UNREACHABLE` (44_transfer_scheduler.md R322,
45_lifecycle_status.md R360 "fatal"). -/
def fatalCode (cause : FatalCause) : Status := if cause = .linkStalled then .linkStalled else .deviceUnreachable

/-- `phase_reject(s)` of REG_READ, REG_WRITE and TX_ENQUEUE; none where the table says "accept"
(45_lifecycle_status.md R360). -/
def phaseReject (s : State) : Option Status :=
  match s.phase with
  | .uninit => some .notInitialized
  | .idle => none
  | .exchanging => none
  | .draining => some .shutdown
  | .stopped => some .shutdown
  | .failed => some (fatalCode s.fatalCause)

/-- An exchange is in flight: `phase` is `EXCHANGING` or `DRAINING` (44_transfer_scheduler.md R310). -/
def inFlight (s : State) : Bool := s.phase == .exchanging || s.phase == .draining

/-- `rx_discard(count)` (43_data_framer.md R279). -/
def rxDiscard (count : Bool) (s : State) : State :=
  if s.rxst = .asm then
    { s with rxst := .idle, rxbuf := [], rxts := false, cntRxDrop := if count then s.cntRxDrop + 1#32 else s.cntRxDrop }
  else s

/-- `rx_append(bytes)` (43_data_framer.md R277). -/
def rxAppend (bytes : List Byte) (s : State) : State :=
  if s.par.rxMaxFrame < s.rxbuf.length + bytes.length then rxDiscard true s else { s with rxbuf := s.rxbuf ++ bytes }

/-- `rx_start(bytes, rtsa)` (43_data_framer.md R276). -/
def rxStart (bytes : List Byte) (rtsa : Bit) (s : State) : State :=
  rxAppend bytes { s with rxst := .asm, rxbuf := [], rxts := s.tsEn && bitSet rtsa }

/-- `rx_finish()` (43_data_framer.md R278). -/
def rxFinish (s : State) : State :=
  if s.rxq.length = s.par.rxqCap then
    { s with cntRxOvf := s.cntRxOvf + 1#32, rxst := .idle, rxbuf := [], rxts := false }
  else
    { s with rxq := s.rxq ++ [{ bytes := s.rxbuf, ts := s.rxts }], history := s.history ++ [.rxFrame s.rxbuf s.rxts],
             rxst := .idle, rxbuf := [], rxts := false }

/-- `if s.rxst = RX_ASM then rx_finish()` (43_data_framer.md R270). -/
def rxFinishIfAsm (s : State) : State := if s.rxst = .asm then rxFinish s else s

/-- The transactions that are pending, the slot's first (44_transfer_scheduler.md R322, R323). -/
def pendingTxns (s : State) : List Txn := s.slot.toList ++ s.ctrlq

/-- Every pending transaction is answered with a code, in slot-then-queue order, and the slot and the queue are emptied
(44_transfer_scheduler.md R322, R323). -/
def failPending (code : Status) (s : State) : State :=
  { s with history := s.history ++ (pendingTxns s).map (fun t => respondInd t.caller t.op.opc code []),
           slot := none, ctrlq := [] }

/-- `enter_failed()` (44_transfer_scheduler.md R322). -/
def enterFailed (s : State) : State :=
  rxDiscard false (failPending (fatalCode s.fatalCause) ({ s with phase := .failed }.emit (.fatal s.fatalCause)))

/-- The transmit frames that the engine holds, in transmit order (44_transfer_scheduler.md R323). -/
def heldFrames (s : State) : List (List Byte) := s.txcur.toList.map (fun c => c.frame) ++ s.txq

/-- The transmit frames are released as undelivered (44_transfer_scheduler.md R323). -/
def releaseFrames (s : State) : State :=
  { s with history := s.history ++ (heldFrames s).map .txUndelivered, txcur := none, txq := [] }

/-- `teardown()` (44_transfer_scheduler.md R323). -/
def teardown (s : State) : State :=
  { releaseFrames (rxDiscard false (failPending .shutdown s)) with irqPending := false, freshWake := false, stallPolls := 0 }

/-- The answer to the caller whose SHUTDOWN waited for the drain (44_transfer_scheduler.md R324). -/
def answerShutdown (s : State) : State :=
  match s.shutCaller with
  | some c => { s.respond c opcShutdown .ok [] with shutCaller := none }
  | none => s

/-- `finish_drain()` (44_transfer_scheduler.md R324). -/
def finishDrain (s : State) : State := answerShutdown { teardown s with phase := .stopped }

/-- The exchange in flight has ended (44_transfer_scheduler.md R318, R321). -/
def clearExchange (s : State) : State := { s with xkind := .none, xout := [], xlen := 0, xin := [] }

/-- The end of `XferComplete`, after the inbound bytes were processed (44_transfer_scheduler.md R318). -/
def finishExchange (s : State) : State :=
  if s.phase = .draining then finishDrain (clearExchange s)
  else if s.fatalCause ≠ .none then enterFailed (clearExchange s)
  else { clearExchange s with phase := .idle }

/-- The end of `SchedIssue`: the exchange is in flight and its outbound string goes to the transport
(44_transfer_scheduler.md R316). -/
def startExchange (kind : XKind) (out : List Byte) (len : Nat) (s : State) : State :=
  { s with xkind := kind, xout := out, xlen := len, phase := .exchanging, history := s.history ++ [.xferReq out] }

/-- The wake latches clear when a data or poll exchange is issued (44_transfer_scheduler.md R316). -/
def clearWake (s : State) : State := { s with irqPending := false, freshWake := false }

/-- The guard of an inbound wire word `w` of an exchange of a kind that `kindOk` admits: the exchange is in flight, the
inbound string has its length, and `w` stands in it at `off` (44_transfer_scheduler.md R318, 30_encoding.md R125, R129). -/
def inboundGuard (kindOk : Bool) (off : Nat) (w : Word32) (s : State) : Option Fault :=
  if inFlight s = false ∨ kindOk = false then some .noExchange
  else if s.xin.length ≠ s.xout.length ∨ (memRead s.xin off 4).length ≠ 4 then some .inboundLength
  else if be32 (memRead s.xin off 4) ≠ w then some .inboundWord
  else none

end Sys2Proof.Machine
end

