-- ==== Sys2Proof/Machine/Scheduler.lean ====
section
/-! DEFINITION. The full-duplex transfer scheduler (44_transfer_scheduler.md): work and selection, the header it sends next,
the wake input and the transport fault; and the meaning of the credit poll header DATA_POLL. -/

namespace Sys2Proof.Machine

/-- `has_work(s)` (44_transfer_scheduler.md R314). -/
def hasWork (s : State) : Bool :=
  s.slot.isSome || txAvail s || s.irqPending || decide (s.rca ≠ 0#5) || (s.freshWake && decide (s.txc = 0#5))

/-- `select(s)` (44_transfer_scheduler.md R315). -/
def select (s : State) : XKind :=
  if s.slot.isSome then .ctrl else if txAvail s = true ∧ s.txc ≠ 0#5 then .data else .poll

/-- `SchedIssue` is enabled (44_transfer_scheduler.md R310, R316). -/
def canIssue (s : State) : Bool := s.phase == .idle && hasWork s

/-- The transmit frame in flight and the queue behind it, once `load_txcur` has run (43_data_framer.md R261). -/
def loadTxcur (s : State) : Option (TxCur × List (List Byte)) :=
  match s.txcur with
  | some c => some (c, s.txq)
  | none => match s.txq with
    | f :: rest => some ({ frame := f, cur := 0, hret := 0 }, rest)
    | [] => none

/-- `len` of `tx_chunk` (43_data_framer.md R262). -/
def chunkLen (width : Nat) (c : TxCur) : Nat := min width (c.frame.length - c.cur)

/-- The header of `tx_chunk` (43_data_framer.md R262). -/
def chunkHeader (sense : ParitySense) (width : Nat) (c : TxCur) : Word32 :=
  encodeDataHeader sense (BitVec.ofBool (c.cur == 0)) (BitVec.ofBool (c.cur + chunkLen width c == c.frame.length))
    (chunkLen width c)

/-- The payload of `tx_chunk` (43_data_framer.md R262). -/
def chunkPayload (width : Nat) (c : TxCur) : List Byte :=
  memRead c.frame c.cur (chunkLen width c) ++ zeros (width - chunkLen width c)

/-- The header of the exchange that `SchedIssue` starts, none where it is not enabled (44_transfer_scheduler.md R316). -/
def scheduledHeader (s : State) : Option Word32 :=
  if canIssue s then
    match select s with
    | .ctrl => s.slot.map (fun t => t.hdr)
    | .data => (loadTxcur s).map (fun q => chunkHeader s.par.paritySense s.cfgW q.1)
    | .poll => some (pollHeader s.par.paritySense)
    | .none => none
  else none

/-- The scheduler's next exchange has kind `kind` and header `w`. -/
def scheduled (kind : XKind) (w : Word32) (s : State) : Bool := select s == kind && scheduledHeader s == some w

/-- The `POLL` case of `SchedIssue` (44_transfer_scheduler.md R316, 41_credit_tracker.md R207). -/
def issuePoll (s : State) : State :=
  startExchange .poll (toBE32 (pollHeader s.par.paritySense) ++ zeros s.cfgW) 0
    (clearWake { s with stallPolls := if txAvail s then s.stallPolls + 1 else s.stallPolls })

/-- DATA_POLL: the scheduler sends a credit poll (44_transfer_scheduler.md R316, 30_encoding.md R126). -/
def execDataPoll (p : Bit) (s : State) : Result :=
  if scheduled .poll (pollWord p) s then .next (issuePoll s) else .fault .notScheduled

/-- `Wake()` (44_transfer_scheduler.md R311). -/
def wake (s : State) : State :=
  if s.phase = .idle ∨ s.phase = .exchanging ∨ s.phase = .draining then { s with irqPending := true, freshWake := true }
  else s

/-- `XferFault()` (44_transfer_scheduler.md R321). -/
def xferFault (s : State) : State :=
  if s.phase = .draining then finishDrain (clearExchange (s.emit .xferFault))
  else
    enterFailed { clearExchange (s.emit .xferFault) with
      fatalCause := if s.fatalCause = .none then .transportFault else s.fatalCause }

end Sys2Proof.Machine
end

