-- ==== Sys2Proof/Machine/Control.lean ====
section
/-! DEFINITION. The control transaction engine (42_control_transactions.md): REG_READ and REG_WRITE, the control headers the
scheduler sends, and the classification of the control echo with its four outcomes. -/

namespace Sys2Proof.Machine

/-- The port holds a REG command: the slot is occupied and the queue is full (42_control_transactions.md R223). -/
def ctrlFull (s : State) : Bool := s.slot.isSome && !decide (s.ctrlq.length < s.par.ctrlqCap)

/-- `submit_ctrl(t)`. A held command stays outside the engine, in the port's line, and changes nothing else
(42_control_transactions.md R223; notes/assumptions/4.md). -/
def submitCtrl (t : Txn) (d : List Word32) (s : State) : State :=
  if s.slot = none then { s with slot := some t, freshWake := true }
  else if s.ctrlq.length < s.par.ctrlqCap then { s with ctrlq := s.ctrlq ++ [t], freshWake := true }
  else { s with held := s.held ++ [{ caller := t.caller, words := d }] }

/-- A REG command with descriptor `d`: validity of its operands, then the phase, then submission
(42_control_transactions.md R221, R222; 45_lifecycle_status.md R361). -/
def regCommand (t : Txn) (d : List Word32) (s : State) : State :=
  if countOk t.n = false then s.answer t.op.opc .invalid []
  else match phaseReject s with
    | some code => s.answer t.op.opc code []
    | none => submitCtrl t d s

/-- REG_READ (42_control_transactions.md R221). -/
def execRegRead (aid : Bit) (mms : BitVec 4) (addr : BitVec 16) (count : BitVec 8) (s : State) : Result :=
  .next (regCommand (mkTxn s.par.paritySense .rd aid mms addr count.toNat [] s.portCaller)
    (encode (.regRead aid mms addr count)) s)

/-- REG_WRITE (42_control_transactions.md R222). -/
def execRegWrite (aid : Bit) (mms : BitVec 4) (addr : BitVec 16) (vals : List Word32) (s : State) : Result :=
  .next (regCommand (mkTxn s.par.paritySense .wr aid mms addr vals.length vals s.portCaller)
    (encode (.regWrite aid mms addr vals)) s)

/-- `slot_next()` (42_control_transactions.md R224). -/
def slotNext (s : State) : State :=
  match s.ctrlq with
  | [] => { s with slot := none }
  | t :: rest => { s with slot := some t, ctrlq := rest }

/-- `ctrl_out(t)` (42_control_transactions.md R225, 30_encoding.md R128). -/
def ctrlOut (t : Txn) : List Byte :=
  toBE32 t.hdr ++ (if t.op = .wr then t.wvals.flatMap toBE32 else zeros (4 * t.n)) ++ zeros 4

/-- The `CTRL` case of `SchedIssue`, where the slot's header is `w` (44_transfer_scheduler.md R316). -/
def issueCtrl (w : Word32) (s : State) : Result :=
  match s.slot with
  | some t => if scheduled .ctrl w s then .next (startExchange .ctrl (ctrlOut t) 0 s) else .fault .notScheduled
  | none => .fault .notScheduled

/-- CTRL_HDR_RD: the scheduler sends the control exchange of a register read (42_control_transactions.md R225). -/
def execCtrlHdrRd (aid : Bit) (mms : BitVec 4) (addr : BitVec 16) (len : BitVec 7) (p : Bit) (s : State) : Result :=
  issueCtrl (ctrlWord 0#1 0#1 0#1 aid mms addr len p) s

/-- CTRL_HDR_WR: the scheduler sends the control exchange of a register write (42_control_transactions.md R225). -/
def execCtrlHdrWr (aid : Bit) (mms : BitVec 4) (addr : BitVec 16) (len : BitVec 7) (p : Bit) (s : State) : Result :=
  issueCtrl (ctrlWord 0#1 0#1 1#1 aid mms addr len p) s

/-- The four classes of a control echo (42_control_transactions.md R227). -/
inductive EchoClass where
  | matching
  | mismatch
  | parity
  | noReply
  deriving DecidableEq, Repr

/-- The comparison of `classify`: some echoed field differs from the transaction (42_control_transactions.md R227). -/
def echoDiffers (t : Txn) (w : Word32) : Bool :=
  w.extractLsb' 31 1 != 0#1 || w.extractLsb' 29 1 != t.hdr.extractLsb' 29 1 ||
    w.extractLsb' 28 1 != t.hdr.extractLsb' 28 1 || w.extractLsb' 24 4 != t.mms || w.extractLsb' 8 16 != t.addr ||
    (w.extractLsb' 1 7).toNat != t.n - 1

/-- `classify(t, in)` of the echo word `w` (42_control_transactions.md R227). -/
def classify (sense : ParitySense) (t : Txn) (w : Word32) : EchoClass :=
  if w = 0#32 ∨ w = 0xFFFFFFFF#32 then .noReply
  else if parityOk sense w = false then .parity
  else if w.extractLsb' 30 1 = 1#1 then .parity
  else if echoDiffers t w then .mismatch
  else .matching

/-- `read_data(t, in)` (42_control_transactions.md R236). -/
def readData (n : Nat) (xin : List Byte) : List Word32 := (List.range n).map (fun i => be32 (memRead xin (8 + 4 * i) 4))

/-- MATCH (42_control_transactions.md R228, R235). -/
def ctrlMatch (t : Txn) (s : State) : State :=
  slotNext (s.respond t.caller t.op.opc .ok (if t.op = .rd then readData t.n s.xin else []))

/-- MISMATCH (42_control_transactions.md R229). -/
def ctrlMismatch (t : Txn) (s : State) : State := slotNext (s.respond t.caller t.op.opc .replyMismatch [])

/-- PARITY (42_control_transactions.md R230). -/
def ctrlParity (t : Txn) (s : State) : State :=
  if s.par.parityRetryMax < t.pfail + 1 then slotNext (s.respond t.caller t.op.opc .parityError [])
  else { s with slot := some { t with pfail := t.pfail + 1 } }

/-- NOREPLY (42_control_transactions.md R231). -/
def ctrlNoReply (t : Txn) (s : State) : State :=
  if s.par.ctrlTimeoutIters ≤ t.nrep + 1 then
    slotNext { s.respond t.caller t.op.opc .deviceUnreachable [] with stUnreach := true }
  else { s with slot := some { t with nrep := t.nrep + 1 } }

/-- `ctrl_complete(in)` with echo word `w` (44_transfer_scheduler.md R320). -/
def ctrlReply (w : Word32) (t : Txn) (s : State) : State :=
  match classify s.par.paritySense t w with
  | .matching => ctrlMatch t s
  | .mismatch => ctrlMismatch t s
  | .parity => ctrlParity t s
  | .noReply => ctrlNoReply t s

/-- `XferComplete(in)` of a `CTRL` exchange whose echo word is `w`, where `reply` processes the slot's transaction
(44_transfer_scheduler.md R318, R320). -/
def completeCtrl (w : Word32) (reply : Txn → State → State) (s : State) : Result :=
  match inboundGuard (s.xkind == .ctrl) 4 w s with
  | some e => .fault e
  | none => match s.slot with
    | some t => .next (finishExchange (reply t (s.emit (.xferIn s.xin))))
    | none => .fault .noTransaction

/-- CTRL_ECHO (42_control_transactions.md R227 to R231). -/
def execCtrlEcho (dnc hdrb wnr aid : Bit) (mms : BitVec 4) (addr : BitVec 16) (len : BitVec 7) (p : Bit) (s : State) :
    Result :=
  completeCtrl (ctrlWord dnc hdrb wnr aid mms addr len p) (ctrlReply (ctrlWord dnc hdrb wnr aid mms addr len p)) s

/-- CTRL_ECHO_NOREPLY_0 (42_control_transactions.md R227, R231). -/
def execCtrlEchoNoreply0 (s : State) : Result := completeCtrl 0#32 ctrlNoReply s

/-- CTRL_ECHO_NOREPLY_1 (42_control_transactions.md R227, R231). -/
def execCtrlEchoNoreply1 (s : State) : Result := completeCtrl 0xFFFFFFFF#32 ctrlNoReply s

end Sys2Proof.Machine
end

