-- ==== Sys2Proof/Machine/Framer.lean ====
section
/-! DEFINITION. The data frame segmentor and reassembler (43_data_framer.md): TX_ENQUEUE and RX_POLL, the data header the
scheduler sends, and the completion of a data or poll exchange for each of the five footer rows
(44_transfer_scheduler.md R319). -/

namespace Sys2Proof.Machine

/-- TX_ENQUEUE (43_data_framer.md R260; the operand check V5 first, 45_lifecycle_status.md R361). -/
def execTxEnqueue (frame : List Byte) (s : State) : Result :=
  if frameLenOk s.par frame.length = false then .next (s.answer opcTxEnqueue .invalid [])
  else match phaseReject s with
    | some code => .next (s.answer opcTxEnqueue code [])
    | none =>
      if s.txq.length = s.par.txqCap then .next (s.answer opcTxEnqueue .busy [])
      else .next ({ s with txq := s.txq ++ [frame], freshWake := true }.answer opcTxEnqueue .ok [])

/-- The data words of RX_POLL's response for a frame (30_encoding.md R155, 43_data_framer.md R283). For a frame of more than
65535 bytes the two rules differ in word 2, `{16'b0, LEN}` and `zext_32(|b|)`, and from 2^32 bytes on neither fits: DESIGN
CHOICE, the whole length of R283, modulo 2^32 (notes/assumptions/20.md). -/
def rxPollWords (f : RxFrame) : List Word32 :=
  (0#30 ++ BitVec.ofBool f.ts ++ 1#1) :: BitVec.ofNat 32 f.bytes.length :: pack f.bytes

/-- RX_POLL (43_data_framer.md R283). -/
def execRxPoll (s : State) : Result :=
  if s.phase = .uninit then .next (s.answer opcRxPoll .notInitialized [])
  else match s.rxq with
    | [] => .next (s.answer opcRxPoll .ok [0#32])
    | f :: rest => .next ({ s with rxq := rest }.answer opcRxPoll .ok (rxPollWords f))

/-- The `DATA` case of `SchedIssue` for the frame `c` with the queue `q` behind it (44_transfer_scheduler.md R316,
43_data_framer.md R261, R262, 41_credit_tracker.md R201). -/
def issueData (c : TxCur) (q : List (List Byte)) (s : State) : State :=
  startExchange .data (toBE32 (chunkHeader s.par.paritySense s.cfgW c) ++ chunkPayload s.cfgW c) (chunkLen s.cfgW c)
    (clearWake { s with txcur := some c, txq := q, txc := s.txc - 1#5 })

/-- DATA_HDR: the scheduler sends the next data chunk (43_data_framer.md R262, 44_transfer_scheduler.md R316). -/
def execDataHdr (sv ev : Bit) (ebo : BitVec 6) (p : Bit) (s : State) : Result :=
  match loadTxcur s with
  | some q => if scheduled .data (dataWord sv ev ebo p) s then .next (issueData q.1 q.2 s) else .fault .notScheduled
  | none => .fault .notScheduled

/-- `tx_commit()` (43_data_framer.md R263). -/
def txCommit (s : State) : State :=
  match s.txcur with
  | some c =>
    if c.cur + s.xlen = c.frame.length then { s with txcur := none, history := s.history ++ [.txDone c.frame] }
    else { s with txcur := some { c with cur := c.cur + s.xlen, hret := 0 } }
  | none => s

/-- `tx_reject()` (43_data_framer.md R264). -/
def txReject (s : State) : State :=
  match s.txcur with
  | some c =>
    if s.par.parityRetryMax < c.hret + 1 then
      { s with txcur := none, cntTxAbort := s.cntTxAbort + 1#32, history := s.history ++ [.txAborted c.frame] }
    else { s with txcur := some { c with hret := c.hret + 1 } }
  | none => s

/-- The frame in flight restarts after a remote reset (43_data_framer.md R265, 41_credit_tracker.md R211). -/
def txRestart (s : State) : State :=
  match s.txcur with
  | some c => { s with txcur := some { c with cur := 0, hret := 0 } }
  | none => s

/-- The sync edge check (41_credit_tracker.md R211). -/
def syncEdge (f : Footer) (s : State) : State :=
  if syncFalls f s then { txRestart (rxDiscard true { s with stUnsync := true }) with syncSeen := bitSet f.sync }
  else { s with syncSeen := bitSet f.sync }

/-- The transmit side of a valid footer whose sync flag did not fall (44_transfer_scheduler.md R319 step 4). -/
def txSide (f : Footer) (s : State) : State :=
  if s.xkind = .data then if bitSet f.hdrb then txReject s else txCommit s else s

/-- Steps 1 to 5 of a valid footer, `rx` being the receive side of its row (44_transfer_scheduler.md R319). -/
def validFooter (f : Footer) (rx : State → State) (s : State) : State :=
  if syncFalls f s then syncEdge f (latchFooterFlags f (creditReplace f s))
  else rx (txSide f (syncEdge f (latchFooterFlags f (creditReplace f s))))

/-- Steps 1 to 3 of an invalid footer (44_transfer_scheduler.md R319, 43_data_framer.md R266, R281). -/
def invalidFooter (s : State) : State :=
  if s.xkind = .data then txCommit (rxDiscard true (footerError s)) else rxDiscard true (footerError s)

/-- `data_complete(in)` (44_transfer_scheduler.md R319). -/
def dataComplete (r : FooterResult) (rx : State → State) (s : State) : State :=
  match r with
  | .valid f => stallCheck (validFooter f rx s)
  | .parity => stallCheck (invalidFooter s)
  | .malformed => stallCheck (invalidFooter s)

/-- `XferComplete(in)` of a `DATA` or `POLL` exchange whose footer word is `w`, where `rx` is the receive side for the
payload (44_transfer_scheduler.md R318, R319). -/
def completeData (w : Word32) (rx : List Byte → State → State) (s : State) : Result :=
  match inboundGuard (s.xkind != .ctrl) s.cfgW w s with
  | some e => .fault e
  | none =>
    .next (finishExchange (dataComplete (decodeFooter s.par.paritySense s.cfgW (toBE32 w)) (rx (memRead s.xin 0 s.cfgW))
      (s.emit (.xferIn s.xin))))

/-- The payload byte at which a frame starts (30_encoding.md R121). -/
def startByte (b : FooterBits) : Nat := 4 * b.swo.toNat

/-- The payload byte at which a frame ends (30_encoding.md R120). -/
def endByte (b : FooterBits) : Nat := b.ebo.toNat

/-- Zero-alignment makes a start at this byte ineligible (43_data_framer.md R280). -/
def ineligible (s : State) (sb : Nat) : Bool := s.cfgZa && decide (sb ≠ 0)

/-- No receive data (43_data_framer.md R270, R271). -/
def rxNoData (b : FooterBits) (s : State) : State := if bitSet b.fd then rxDiscard true s else s

/-- A whole frame in the chunk (43_data_framer.md R270, R272). -/
def rxWhole (b : FooterBits) (payload : List Byte) (s : State) : State :=
  let s1 := rxDiscard true s
  if bitSet b.fd then { s1 with cntRxDrop := s1.cntRxDrop + 1#32 }
  else if ineligible s (startByte b) then s1
  else rxFinishIfAsm (rxStart (bytesFromTo payload (startByte b) (endByte b)) b.rtsa s1)

/-- The end of the frame in progress (43_data_framer.md R270, R273). -/
def rxEnd (b : FooterBits) (payload : List Byte) (s : State) : State :=
  if s.rxst = .asm then
    if bitSet b.fd then rxDiscard true s else rxFinishIfAsm (rxAppend (bytesFromTo payload 0 (endByte b)) s)
  else s

/-- The end of the frame in progress and, after it, the start of a new one (43_data_framer.md R270, R273). -/
def rxEndThenStart (b : FooterBits) (payload : List Byte) (s : State) : State :=
  let s1 := rxEnd b payload s
  if s.cfgZa then s1 else rxStart (bytesFromTo payload (startByte b) (s.cfgW - 1)) b.rtsa s1

/-- The start of a frame (43_data_framer.md R270, R274). -/
def rxBegin (b : FooterBits) (payload : List Byte) (s : State) : State :=
  let s1 := rxDiscard true s
  if bitSet b.fd then s1
  else if ineligible s (startByte b) then s1
  else rxStart (bytesFromTo payload (startByte b) (s.cfgW - 1)) b.rtsa s1

/-- A continuation (43_data_framer.md R270, R275). -/
def rxContinue (b : FooterBits) (payload : List Byte) (s : State) : State :=
  if bitSet b.fd then rxDiscard true s
  else if s.rxst = .asm then rxAppend (bytesFromTo payload 0 (s.cfgW - 1)) s
  else s

/-- FTR_NODATA (43_data_framer.md R271, 44_transfer_scheduler.md R319). -/
def execFtrNodata (sv ev : Bit) (b : FooterBits) (s : State) : Result :=
  completeData (footerWord (footerOf 0#1 sv ev b) b.p) (fun _ => rxNoData b) s

/-- FTR_CONT (43_data_framer.md R275, 44_transfer_scheduler.md R319). -/
def execFtrCont (b : FooterBits) (s : State) : Result :=
  completeData (footerWord (footerOf 1#1 0#1 0#1 b) b.p) (rxContinue b) s

/-- FTR_SOF (43_data_framer.md R274, 44_transfer_scheduler.md R319). -/
def execFtrSof (b : FooterBits) (s : State) : Result :=
  completeData (footerWord (footerOf 1#1 1#1 0#1 b) b.p) (rxBegin b) s

/-- FTR_EOF (43_data_framer.md R273, 44_transfer_scheduler.md R319). -/
def execFtrEof (b : FooterBits) (s : State) : Result :=
  completeData (footerWord (footerOf 1#1 0#1 1#1 b) b.p) (rxEnd b) s

/-- FTR_SOF_EOF: a whole frame when `4 * SWO <= EBO`, else an end and then a start (43_data_framer.md R272, R273,
44_transfer_scheduler.md R319). -/
def execFtrSofEof (b : FooterBits) (s : State) : Result :=
  completeData (footerWord (footerOf 1#1 1#1 1#1 b) b.p)
    (fun payload => if startByte b ≤ endByte b then rxWhole b payload else rxEndThenStart b payload) s

end Sys2Proof.Machine
end

