-- ==== Sys2Proof/Machine/Lifecycle.lean ====
section
/-! DEFINITION. The lifecycle and timestamp mode commands INIT, SHUTDOWN, TS_ENABLE and TS_DISABLE
(45_lifecycle_status.md R350 to R353). -/

namespace Sys2Proof.Machine

/-- Every element at its INIT value, with the configuration of the descriptor (10_state.md R55, 45_lifecycle_status.md
R350). The parameters, the history and the model's inputs, held commands and port tag are not elements of R55. -/
def initState (tscap za : Bit) (wcode : BitVec 2) (s : State) : State :=
  { s with
    cfgWcode := wcode, cfgW := widthOfCode wcode, cfgZa := bitSet za, cfgTscap := bitSet tscap, phase := .idle
    xkind := .none, xout := [], xlen := 0, irqPending := false, freshWake := false, stallPolls := 0, fatalCause := .none
    txc := 0#5, rca := 0#5, syncSeen := false, slot := none, ctrlq := [], txq := [], txcur := none, rxst := .idle
    rxbuf := [], rxts := false, rxq := [], stUnsync := false, stExst := false, stHdrb := false, stUnreach := false
    stFtrerr := false, tsEn := false, cntRxDrop := 0#32, cntRxOvf := 0#32, cntFtrErr := 0#32, cntTxAbort := 0#32
    shutCaller := none, xin := [] }

/-- INIT (45_lifecycle_status.md R350). -/
def execInit (tscap za : Bit) (wcode : BitVec 2) (s : State) : Result :=
  if s.phase = .uninit ∨ s.phase = .stopped then .next ((initState tscap za wcode s).answer opcInit .ok [])
  else .next (s.answer opcInit .invalid [])

/-- SHUTDOWN (45_lifecycle_status.md R351). -/
def execShutdown (s : State) : Result :=
  match s.phase with
  | .uninit => .next (s.answer opcShutdown .notInitialized [])
  | .idle => .next ({ teardown s with phase := .stopped }.answer opcShutdown .ok [])
  | .failed => .next ({ teardown s with phase := .stopped }.answer opcShutdown .ok [])
  | .exchanging => .next { s with phase := .draining, shutCaller := some s.portCaller }
  | .draining => .next (s.answer opcShutdown .ok [])
  | .stopped => .next (s.answer opcShutdown .ok [])

/-- TS_ENABLE (45_lifecycle_status.md R352). -/
def execTsEnable (s : State) : Result :=
  if s.phase = .uninit then .next (s.answer opcTsEnable .notInitialized [])
  else if s.phase = .draining ∨ s.phase = .stopped then .next (s.answer opcTsEnable .shutdown [])
  else if s.cfgTscap = false then .next (s.answer opcTsEnable .unsupported [])
  else .next ({ s with tsEn := true }.answer opcTsEnable .ok [])

/-- TS_DISABLE (45_lifecycle_status.md R353). -/
def execTsDisable (s : State) : Result :=
  if s.phase = .uninit then .next (s.answer opcTsDisable .notInitialized [])
  else if s.phase = .draining ∨ s.phase = .stopped then .next (s.answer opcTsDisable .shutdown [])
  else .next ({ s with tsEn := false }.answer opcTsDisable .ok [])

end Sys2Proof.Machine
end

