-- ==== Sys2Proof/Machine/Status.lean ====
section
/-! DEFINITION. The status commands STATUS_READ and STATUS_CLEAR (45_lifecycle_status.md R354, R355). -/

namespace Sys2Proof.Machine

/-- STATUS_READ (45_lifecycle_status.md R354). -/
def execStatusRead (s : State) : Result :=
  if s.phase = .uninit then .next (s.answer opcStatusRead .notInitialized [])
  else .next (s.answer opcStatusRead .ok (statusWords s))

/-- STATUS_CLEAR (45_lifecycle_status.md R355; the operand check V6 first, R361). -/
def execStatusClear (mask : BitVec 16) (s : State) : Result :=
  if maskOk mask = false then .next (s.answer opcStatusClear .invalid [])
  else if s.phase = .uninit then .next (s.answer opcStatusClear .notInitialized [])
  else .next ((clearStatus mask s).answer opcStatusClear .ok [])

end Sys2Proof.Machine
end

