-- ==== Sys2Proof/Machine/Fetch.lean ====
section
/-! DEFINITION. What the machine does next (44_transfer_scheduler.md R310, 45_lifecycle_status.md R361): which agent moves,
where the words of its instruction stand, and what they decode to. A descriptor stands at the command port, the header of an
exchange is the one the scheduler selects, and the word of a completion stands in the inbound string. Also the placing of one
instruction of the opcode table so that it is the next. -/

namespace Sys2Proof.Machine

/-- What the machine does next. -/
inductive Fetched where
  /-- it runs an instruction, in this state -/
  | run (i : Instr) (s : State)
  /-- its step is no instruction (a wake pulse, a transport fault, an invalid or held descriptor, an idle turn) -/
  | done (s : State)
  /-- the step asked for is not enabled -/
  | stop (e : Fault)
  deriving DecidableEq, Repr

/-- The port does not accept this descriptor now: it is a valid REG descriptor, the phase accepts it, and the slot and the
queue are full (42_control_transactions.md R223, 45_lifecycle_status.md R361). -/
def holds (d : List Word32) (s : State) : Bool :=
  match decode .command d with
  | .ok (.regRead _ _ _ count) => countOk count.toNat && phaseReject s == none && ctrlFull s
  | .ok (.regWrite _ _ _ vals) => countOk vals.length && phaseReject s == none && ctrlFull s
  | _ => false

/-- The step `Cmd(c, d)` (45_lifecycle_status.md R361): an invalid descriptor is answered `INVALID`. -/
def fetchCmd (c : Caller) (d : List Word32) (s : State) : Fetched :=
  match decode .command d with
  | .ok i => .run i { s with portCaller := c }
  | .error _ => .done (s.respond c (responseOpcode d) .invalid [])

/-- The scheduler's turn: `SchedIssue` where it is enabled, else no step (44_transfer_scheduler.md R316, R317). -/
def fetchIssue (s : State) : Fetched :=
  match scheduledHeader s with
  | none => .done s
  | some w => match decode .outbound [w] with
    | .ok i => .run i s
    | .error _ => .stop .notScheduled

/-- Where the word of a completion stands in the inbound string (30_encoding.md R125, R129). -/
def inboundOffset (s : State) : Nat := if s.xkind = .ctrl then 4 else s.cfgW

/-- The port at which the word of a completion stands (90_conflicts.md C4: by the kind of the exchange). -/
def inboundPort (s : State) : Port := if s.xkind = .ctrl then .ctrlIn else .dataIn

/-- The step `XferComplete(in)` (44_transfer_scheduler.md R318). -/
def fetchInbound (bytes : List Byte) (s : State) : Fetched :=
  if inFlight s = false then .stop .noExchange
  else if bytes.length ≠ s.xout.length ∨ (memRead bytes (inboundOffset s) 4).length ≠ 4 then .stop .inboundLength
  else match decode (inboundPort s) [be32 (memRead bytes (inboundOffset s) 4)] with
    | .ok i => .run i { s with xin := bytes }
    | .error _ => .stop .inboundWord

/-- The step of one event. A command of a caller that the port already holds waits behind it, in the caller's order
(20_memory.md R93). -/
def fetchEvent (e : Event) (s : State) : Fetched :=
  match e with
  | .cmd c d =>
    if s.held.any (fun h => h.caller == c) then .done { s with held := s.held ++ [{ caller := c, words := d }] }
    else fetchCmd c d s
  | .wake => .done (wake s)
  | .issue => fetchIssue s
  | .complete bytes => fetchInbound bytes s
  | .fault => if inFlight s then .done (xferFault s) else .stop .noExchange

/-- What the agents do next, once the port has no held command to accept; with no input left, the scheduler has the turn
(notes/assumptions/5.md). -/
def fetchInput (s : State) : Fetched :=
  match s.inputs with
  | [] => fetchIssue s
  | e :: rest => fetchEvent e { s with inputs := rest }

/-- What the machine does next. The oldest held command is accepted as soon as the port can accept it
(42_control_transactions.md R223; notes/assumptions/4.md). -/
def fetch (s : State) : Fetched :=
  match s.held with
  | [] => fetchInput s
  | h :: rest => if holds h.words s then fetchInput s else fetchCmd h.caller h.words { s with held := rest }

/-- The parity sense under which a word's parity bit is right. -/
def senseOf (w : Word32) : ParitySense := if parityOk .odd w then .odd else .even

/-- A transaction with a given header, for a control exchange of one register. -/
def placedTxn (op : TxnOp) (hdr : Word32) : Txn :=
  { op := op, aid := hdr.extractLsb' 28 1, mms := hdr.extractLsb' 24 4, addr := hdr.extractLsb' 8 16,
    n := (hdr.extractLsb' 1 7).toNat + 1,
    wvals := if op = .wr then List.replicate ((hdr.extractLsb' 1 7).toNat + 1) 0#32 else [], hdr := hdr, caller := 0,
    pfail := 0, nrep := 0 }

/-- A transmit frame in flight whose next chunk, at payload width 64, has these marks. -/
def placedFrame (sv ev : Bit) (ebo : BitVec 6) : TxCur :=
  { frame := zeros ((if bitSet sv then 0 else 64) + (if bitSet ev then ebo.toNat + 1 else 65)),
    cur := if bitSet sv then 0 else 64, hret := 0 }

/-- `s` with a descriptor brought to the command port by caller 0. -/
def placeCommand (d : List Word32) (s : State) : State := { s with inputs := .cmd 0 d :: s.inputs }

/-- `s` with a control exchange in flight whose inbound string carries the echo word `w`. -/
def placeEcho (w : Word32) (s : State) : State :=
  { s with phase := .exchanging, xkind := .ctrl, slot := some (placedTxn .rd 1#32), xout := ctrlOut (placedTxn .rd 1#32),
           inputs := .complete (zeros 4 ++ toBE32 w ++ zeros 4) :: s.inputs }

/-- `s` with a credit poll in flight whose inbound string carries the footer word `w`. -/
def placeFooter (w : Word32) (s : State) : State :=
  { s with phase := .exchanging, xkind := .poll, xout := toBE32 (pollHeader s.par.paritySense) ++ zeros s.cfgW,
           inputs := .complete (zeros s.cfgW ++ toBE32 w) :: s.inputs }

/-- `s` idle, with the slot holding a transaction whose header is `w`, and the scheduler's turn next. -/
def placeCtrlHeader (op : TxnOp) (w : Word32) (s : State) : State :=
  { s with phase := .idle, slot := some (placedTxn op w), inputs := .issue :: s.inputs }

/-- `s` idle with a wake pending, and the scheduler's turn next. -/
def placePoll (w : Word32) (s : State) : State :=
  { s with phase := .idle, irqPending := true, par := { s.par with paritySense := senseOf w },
           inputs := .issue :: s.inputs }

/-- `s` idle with credit and a frame in flight, and the scheduler's turn next. -/
def placeDataHeader (sv ev : Bit) (ebo : BitVec 6) (w : Word32) (s : State) : State :=
  { s with phase := .idle, cfgWcode := 3#2, cfgW := 64, txcur := some (placedFrame sv ev ebo), txc := 1#5,
           par := { s.par with paritySense := senseOf w }, inputs := .issue :: s.inputs }

/-- `s` with the instruction `i`, read from the table word `w`, set up as what happens next (notes/assumptions/9.md). -/
def placeInstr (i : Instr) (d : List Word32) (w : Word32) (s : State) : State :=
  match i with
  | .ctrlHdrRd _ _ _ _ _ => placeCtrlHeader .rd w s
  | .ctrlHdrWr _ _ _ _ _ => placeCtrlHeader .wr w s
  | .ctrlEcho _ _ _ _ _ _ _ _ => placeEcho w s
  | .ctrlEchoNoreply0 => placeEcho w s
  | .ctrlEchoNoreply1 => placeEcho w s
  | .dataPoll _ => placePoll w s
  | .dataHdr sv ev ebo _ => placeDataHeader sv ev ebo w s
  | .ftrNodata _ _ _ => placeFooter w s
  | .ftrCont _ => placeFooter w s
  | .ftrSof _ => placeFooter w s
  | .ftrEof _ => placeFooter w s
  | .ftrSofEof _ => placeFooter w s
  | .init _ _ _ => placeCommand d s
  | .shutdown => placeCommand d s
  | .regRead _ _ _ _ => placeCommand d s
  | .regWrite _ _ _ _ => placeCommand d s
  | .txEnqueue _ => placeCommand d s
  | .rxPoll => placeCommand d s
  | .tsEnable => placeCommand d s
  | .tsDisable => placeCommand d s
  | .statusRead => placeCommand d s
  | .statusClear _ => placeCommand d s

/-- `s` with a table word set up as what happens next: a descriptor brought to the command port, or the exchange in which
the wire word crosses the transport port. -/
def placeWord (s : State) (nbits w : Nat) : State :=
  match decodeTableWord nbits w with
  | some i => placeInstr i (tableDescriptor nbits w) (BitVec.ofNat 32 w) s
  | none => placeCommand (tableDescriptor nbits w) s

end Sys2Proof.Machine
end

