-- ==== Sys2Proof/Machine/Dispatch.lean ====
section
/-! DEFINITION. One arm per instruction. -/

namespace Sys2Proof.Machine

def exec (i : Instr) (s : State) : Host.Outcome State Fault Refusal :=
  match i with
  | .init tscap za wcode => Sys2Proof.Machine.execInit tscap za wcode s
  | .shutdown => Sys2Proof.Machine.execShutdown s
  | .regRead aid mms addr count => Sys2Proof.Machine.execRegRead aid mms addr count s
  | .regWrite aid mms addr vals => Sys2Proof.Machine.execRegWrite aid mms addr vals s
  | .txEnqueue frame => Sys2Proof.Machine.execTxEnqueue frame s
  | .rxPoll => Sys2Proof.Machine.execRxPoll s
  | .tsEnable => Sys2Proof.Machine.execTsEnable s
  | .tsDisable => Sys2Proof.Machine.execTsDisable s
  | .statusRead => Sys2Proof.Machine.execStatusRead s
  | .statusClear mask => Sys2Proof.Machine.execStatusClear mask s
  | .ctrlHdrRd aid mms addr len p => Sys2Proof.Machine.execCtrlHdrRd aid mms addr len p s
  | .ctrlHdrWr aid mms addr len p => Sys2Proof.Machine.execCtrlHdrWr aid mms addr len p s
  | .ctrlEcho dnc hdrb wnr aid mms addr len p => Sys2Proof.Machine.execCtrlEcho dnc hdrb wnr aid mms addr len p s
  | .ctrlEchoNoreply0 => Sys2Proof.Machine.execCtrlEchoNoreply0 s
  | .ctrlEchoNoreply1 => Sys2Proof.Machine.execCtrlEchoNoreply1 s
  | .dataPoll p => Sys2Proof.Machine.execDataPoll p s
  | .dataHdr sv ev ebo p => Sys2Proof.Machine.execDataHdr sv ev ebo p s
  | .ftrNodata sv ev b => Sys2Proof.Machine.execFtrNodata sv ev b s
  | .ftrCont b => Sys2Proof.Machine.execFtrCont b s
  | .ftrSof b => Sys2Proof.Machine.execFtrSof b s
  | .ftrEof b => Sys2Proof.Machine.execFtrEof b s
  | .ftrSofEof b => Sys2Proof.Machine.execFtrSofEof b s

end Sys2Proof.Machine
end

