-- ==== Sys2Proof/Machine/Step.lean ====
section
/-! DEFINITION. The step, and the placing of one instruction as the next. Both only call Machine/Fetch.lean and exec. -/

namespace Sys2Proof.Machine

/-- What a step answers for what was fetched. -/
def runFetched (f : Fetched) : Host.Outcome State Fault Refusal :=
  match f with
  | .run i s => exec i s
  | .done s => .next s
  | .stop e => .fault e

/-- One step of the machine (00_scope.md R10, 44_transfer_scheduler.md R310). -/
def step (s : State) : Host.Outcome State Fault Refusal := runFetched (fetch s)

/-- `s` with one instruction of the opcode table set up as what the very next step runs (notes/assumptions/9.md). -/
def State.withFetchWord (s : State) (nbits w : Nat) : State := placeWord s nbits w

end Sys2Proof.Machine
end

