-- ==== Sys2Proof/Safety.lean ====
section
/-! DEFINITION. The terms in which claims about the machine are stated: the invariant of 10_state.md R50, the phase
transitions of 44_transfer_scheduler.md R310, and which parts of the state a power-on machine has. -/

namespace Sys2Proof.Machine

/-- A transaction record that `mk_txn` made and that only the retry counters have changed since
(42_control_transactions.md R220). -/
structure Txn.Made (par : Params) (t : Txn) : Prop where
  count : 1 ≤ t.n ∧ t.n ≤ Config.maxRegs
  values : t.wvals.length = if t.op = .wr then t.n else 0
  header : t.hdr = encodeCtrlHeader par.paritySense t.op.wnr t.aid t.mms t.addr t.n

/-- The outbound string of the exchange in flight is the one that `SchedIssue` built from the state
(10_state.md R32, 44_transfer_scheduler.md R316). -/
structure State.ExchangeInv (s : State) : Prop where
  none : s.xkind = .none → s.xout = [] ∧ s.xlen = 0
  ctrl : s.xkind = .ctrl → ∃ t, s.slot = some t ∧ s.xout = ctrlOut t ∧ s.xlen = 0
  data : s.xkind = .data → ∃ c, s.txcur = some c ∧ s.xlen = chunkLen s.cfgW c ∧
    s.xout = toBE32 (chunkHeader s.par.paritySense s.cfgW c) ++ chunkPayload s.cfgW c
  poll : s.xkind = .poll → s.xout = toBE32 (pollHeader s.par.paritySense) ++ zeros s.cfgW ∧ s.xlen = 0

/-- The invariants of 10_state.md R50, with what they need to be kept by every step. -/
structure State.Inv (s : State) : Prop where
  /-- the parameters have legal values (00_scope.md R11) -/
  legal : s.par.Legal
  /-- the payload width is the one `WCODE` selects (30_encoding.md R161) -/
  width : s.cfgW = widthOfCode s.cfgWcode
  /-- R50 (1) -/
  slotFirst : s.slot = none → s.ctrlq = []
  /-- R50 (2) -/
  capacities : s.ctrlq.length ≤ s.par.ctrlqCap ∧ s.txq.length ≤ s.par.txqCap ∧ s.rxq.length ≤ s.par.rxqCap
  /-- R50 (3) -/
  exchange : s.xkind ≠ .none ↔ s.phase = .exchanging ∨ s.phase = .draining
  /-- R32 -/
  outbound : s.ExchangeInv
  /-- R40, R41: every pending transaction was made from a valid REG command -/
  txns : ∀ t ∈ pendingTxns s, t.Made s.par
  /-- R16, R40: the retry counters of the slot stay within their bounds -/
  slotBounds : ∀ t, s.slot = some t → t.pfail ≤ s.par.parityRetryMax ∧ t.nrep < s.par.ctrlTimeoutIters
  /-- 42 R224: a waiting transaction has had no exchange -/
  waiting : ∀ t ∈ s.ctrlq, t.pfail = 0 ∧ t.nrep = 0
  /-- R50 (4), R43 -/
  txcurBounds : ∀ c, s.txcur = some c →
    c.cur < c.frame.length ∧ c.frame.length ≤ s.par.txMaxFrame ∧ c.hret ≤ s.par.parityRetryMax
  /-- R42 -/
  txqFrames : ∀ f ∈ s.txq, 1 ≤ f.length ∧ f.length ≤ s.par.txMaxFrame
  /-- R50 (5) -/
  rxAssembly : s.rxst = .asm → 1 ≤ s.rxbuf.length ∧ s.rxbuf.length ≤ s.par.rxMaxFrame
  /-- R44 -/
  rxIdle : s.rxst = .idle → s.rxbuf = [] ∧ s.rxts = false
  /-- R45: every delivered frame came from the reassembler -/
  rxqFrames : ∀ f ∈ s.rxq, 1 ≤ f.bytes.length ∧ f.bytes.length ≤ s.par.rxMaxFrame
  /-- R50 (6) -/
  failed : s.phase = .failed → s.fatalCause ≠ .none ∧ s.slot = none
  /-- R50 (6), the other direction: no fatal cause is pending while the engine runs or drains -/
  running : s.phase = .idle ∨ s.phase = .exchanging ∨ s.phase = .draining → s.fatalCause = .none
  /-- 44 R323: after teardown nothing is pending, held or in progress -/
  stopped : s.phase = .stopped → s.slot = none ∧ s.txcur = none ∧ s.txq = [] ∧ s.rxst = .idle
  /-- R58 -/
  shutdown : s.shutCaller.isSome = true ↔ s.phase = .draining
  /-- the model's own: an inbound string stands in the state only during the step that processes it -/
  noInbound : s.xin = []

/-- The phase transitions of 44_transfer_scheduler.md R310, and staying in a phase. -/
def PhaseStep (a b : Phase) : Prop :=
  a = b ∨ (a, b) ∈ [(Phase.uninit, Phase.idle), (.idle, .exchanging), (.exchanging, .idle), (.exchanging, .draining),
    (.exchanging, .failed), (.draining, .stopped), (.idle, .stopped), (.failed, .stopped), (.stopped, .idle)]

/-- What a power-on machine has: the parameters, the phase, the history and what the agents around it hold. Every other
element is at one fixed value (10_state.md R54). -/
def State.powerOnView (s : State) : State :=
  { State.reset with
    par := s.par, phase := s.phase, history := s.history, inputs := s.inputs, held := s.held, portCaller := s.portCaller }

/-- The footer and the parity bit of an instruction that is a footer row of the table (30_encoding.md R117). -/
def footerRow (i : Instr) : Option (Footer × Bit) :=
  match i with
  | .ftrNodata sv ev b => some (footerOf 0#1 sv ev b, b.p)
  | .ftrCont b => some (footerOf 1#1 0#1 0#1 b, b.p)
  | .ftrSof b => some (footerOf 1#1 1#1 0#1 b, b.p)
  | .ftrEof b => some (footerOf 1#1 0#1 1#1 b, b.p)
  | .ftrSofEof b => some (footerOf 1#1 1#1 1#1 b, b.p)
  | .init _ _ _ => none
  | .shutdown => none
  | .regRead _ _ _ _ => none
  | .regWrite _ _ _ _ => none
  | .txEnqueue _ => none
  | .rxPoll => none
  | .tsEnable => none
  | .tsDisable => none
  | .statusRead => none
  | .statusClear _ => none
  | .ctrlHdrRd _ _ _ _ _ => none
  | .ctrlHdrWr _ _ _ _ _ => none
  | .ctrlEcho _ _ _ _ _ _ _ _ => none
  | .ctrlEchoNoreply0 => none
  | .ctrlEchoNoreply1 => none
  | .dataPoll _ => none
  | .dataHdr _ _ _ _ => none

/-- The inbound string of a data or poll exchange in flight stands in the state, with `w` as its footer
(44_transfer_scheduler.md R318, 30_encoding.md R125). -/
def State.FooterArrives (s : State) (w : Word32) : Prop :=
  (s.phase = .exchanging ∨ s.phase = .draining) ∧ s.xkind ≠ .ctrl ∧ s.xin.length = s.xout.length ∧
    memRead s.xin s.cfgW 4 = toBE32 w

/-- The inbound string of a control exchange in flight stands in the state, with `w` as its echo
(44_transfer_scheduler.md R318, 30_encoding.md R129). -/
def State.EchoArrives (s : State) (w : Word32) : Prop :=
  (s.phase = .exchanging ∨ s.phase = .draining) ∧ s.xkind = .ctrl ∧ s.xin.length = s.xout.length ∧
    memRead s.xin 4 4 = toBE32 w

/-- A footer word is valid: its parity is right and it is not malformed (40_wire_codec.md R175). -/
def ValidFooter (s : State) (f : Footer) (p : Bit) : Prop :=
  parityOk s.par.paritySense (footerWord f p) = true ∧ f.malformed s.cfgW = false

/-- The link stall check finds no stall after a footer that reports the credit `txc` (41_credit_tracker.md R209). -/
def NoStall (s : State) (txc : BitVec 5) : Prop :=
  ¬(txAvail s = true ∧ txc = 0#5 ∧ s.par.stallPollMax ≤ s.stallPolls)

/-- Nothing is fatal and the footer's sync flag does not fall: the completion of a data or poll exchange in which a valid
footer has its transmit side and its receive side (44_transfer_scheduler.md R319 steps 4 and 5). -/
def SyncHeld (s : State) (b : FooterBits) : Prop := s.fatalCause = .none ∧ ¬(s.syncSeen = true ∧ b.sync = 0#1)

/-- `s` with the inbound string of the exchange that completes in the history (44_transfer_scheduler.md R318). -/
def State.received (s : State) : State := { s with history := s.history ++ [.xferIn s.xin] }

/-- `s` with the chunk in flight committed: the cursor moves by its bytes, or the frame is released as done
(43_data_framer.md R263). -/
def State.chunkCommitted (s : State) : State :=
  match s.txcur with
  | none => s
  | some c =>
    if c.cur + s.xlen = c.frame.length then { s with txcur := none, history := s.history ++ [.txDone c.frame] }
    else { s with txcur := some ⟨c.frame, c.cur + s.xlen, 0⟩ }

/-- `s` with the chunk in flight rejected: the rejections are counted, and past the bound the frame is aborted
(43_data_framer.md R264). -/
def State.chunkRejected (s : State) : State :=
  match s.txcur with
  | none => s
  | some c =>
    if s.par.parityRetryMax < c.hret + 1 then
      { s with txcur := none, cntTxAbort := s.cntTxAbort + 1#32, history := s.history ++ [.txAborted c.frame] }
    else { s with txcur := some ⟨c.frame, c.cur, c.hret + 1⟩ }

/-- `s` after steps 1 to 4 of a valid footer whose sync flag does not fall: the inbound string in the history, credit replaced,
stall count reset where credit is reported, flags latched, sync flag recorded, and the chunk of a data exchange committed, or
rejected where the footer has the header-bad flag (41_credit_tracker.md R200, R208, R211 to R213,
44_transfer_scheduler.md R319). -/
def State.afterFooter (s : State) (b : FooterBits) : State :=
  let u : State :=
    { s.received with
      txc := b.txc, rca := b.rca, stallPolls := if b.txc = 0#5 then s.stallPolls else 0
      stExst := s.stExst || b.exst == 1#1, stHdrb := s.stHdrb || b.hdrb == 1#1, syncSeen := b.sync == 1#1 }
  if s.xkind = .data then (if b.hdrb = 1#1 then u.chunkRejected else u.chunkCommitted) else u

/-- `s` with the receive frame in progress discarded and counted (43_data_framer.md R279). -/
def State.dropped (s : State) : State :=
  { s with rxst := .idle, rxbuf := [], rxts := false, cntRxDrop := s.cntRxDrop + 1#32 }

/-- What no footer changes: the parameters, the configuration, `st_unreach`, `ts_en` and what the agents hold; the control
slot and queue unless the engine fails or stops, and the transmit queue unless it stops (44_transfer_scheduler.md R319, R322,
R323). -/
def FooterFrame (s t : State) : Prop :=
  t.par = s.par ∧ t.cfgWcode = s.cfgWcode ∧ t.cfgW = s.cfgW ∧ t.cfgZa = s.cfgZa ∧ t.cfgTscap = s.cfgTscap ∧
    t.stUnreach = s.stUnreach ∧ t.tsEn = s.tsEn ∧ t.inputs = s.inputs ∧ t.held = s.held ∧ t.portCaller = s.portCaller ∧
    (t.phase = .idle → t.slot = s.slot ∧ t.ctrlq = s.ctrlq) ∧ (t.phase ≠ .stopped → t.txq = s.txq)

/-- The transaction in the slot is answered and the next one moves up (42_control_transactions.md R224). -/
def State.answerSlot (s : State) (t : Txn) (code : Status) (data : List Word32) : State :=
  { s with slot := s.ctrlq.head?, ctrlq := s.ctrlq.tail, history := s.history ++ [respondInd t.caller t.op.opc code data] }

/-- What a teardown leaves: every pending transaction answered `SHUTDOWN` in slot-then-queue order, the receive frame in
progress dropped without count, the transmit frames released in transmit order, the latches and the stall count cleared
(44_transfer_scheduler.md R323). -/
def State.tornDown (s : State) : State :=
  { s with
    history := s.history ++ (s.slot.toList ++ s.ctrlq).map (fun t => respondInd t.caller t.op.opc .shutdown []) ++
      (s.txcur.toList.map (fun c => c.frame) ++ s.txq).map .txUndelivered
    slot := none, ctrlq := [], rxst := .idle, rxbuf := if s.rxst = .asm then [] else s.rxbuf
    rxts := if s.rxst = .asm then false else s.rxts, txcur := none, txq := []
    irqPending := false, freshWake := false, stallPolls := 0 }

/-- What entering `FAILED` leaves (44_transfer_scheduler.md R322). -/
def State.failedWith (s : State) (cause : FatalCause) : State :=
  { s with
    phase := .failed, fatalCause := cause
    history := s.history ++ [.fatal cause] ++
      (s.slot.toList ++ s.ctrlq).map (fun t => respondInd t.caller t.op.opc (fatalCode cause) [])
    slot := none, ctrlq := [], rxst := .idle, rxbuf := if s.rxst = .asm then [] else s.rxbuf
    rxts := if s.rxst = .asm then false else s.rxts }

/-- `s` with no exchange in flight (44_transfer_scheduler.md R318). -/
def State.over (s : State) : State := { s with xkind := .none, xout := [], xlen := 0, xin := [] }

/-- The end of an exchange whose inbound bytes are processed and that left no fatal cause: `IDLE`, or while draining the
teardown, `STOPPED` and the answer to the SHUTDOWN caller (44_transfer_scheduler.md R318, R324). -/
def State.ended (s : State) : State :=
  if s.phase = .draining then
    { s.over.tornDown with
      phase := .stopped, shutCaller := none
      history := s.over.tornDown.history ++ s.shutCaller.toList.map (fun c => .resp c [0x02000000#32]) }
  else { s.over with phase := .idle }

/-- The link is stalled: transmit data waits, there is no credit, and the polls have reached the bound
(41_credit_tracker.md R209). -/
abbrev State.Stalled (s : State) : Prop := txAvail s = true ∧ s.txc = 0#5 ∧ s.par.stallPollMax ≤ s.stallPolls

/-- The end of a data or poll exchange whose inbound bytes are processed, with the link stall check before it: a stalled link
enters `FAILED`, or while draining is recorded as the cause (41_credit_tracker.md R209, 44_transfer_scheduler.md R318,
R319 step 6, R322). -/
def State.settled (s : State) : State :=
  if s.Stalled then
    if s.phase = .draining then { s.ended with fatalCause := .linkStalled } else s.over.failedWith .linkStalled
  else s.ended

/-- `s` with a complete frame delivered, or lost where the delivered-frame queue is full, and no frame in progress
(43_data_framer.md R278). -/
def State.delivered (s : State) (bytes : List Byte) (ts : Bool) : State :=
  if s.rxq.length = s.par.rxqCap then
    { s with rxst := .idle, rxbuf := [], rxts := false, cntRxOvf := s.cntRxOvf + 1#32 }
  else
    { s with rxst := .idle, rxbuf := [], rxts := false, rxq := s.rxq ++ [{ bytes := bytes, ts := ts }]
             history := s.history ++ [.rxFrame bytes ts] }

/-- `s` with a new receive frame that holds these bytes, or with that frame discarded and counted where they exceed
`RX_MAX_FRAME` (43_data_framer.md R276, R277). -/
def State.started (s : State) (bytes : List Byte) (rtsa : Bit) : State :=
  if s.par.rxMaxFrame < bytes.length then s.dropped
  else { s with rxst := .asm, rxbuf := bytes, rxts := s.tsEn && rtsa == 1#1 }

/-- `s` with the receive frame in progress, if there is one, discarded and counted (43_data_framer.md R279). -/
def State.dropIfAsm (s : State) : State := if s.rxst = .asm then s.dropped else s

/-- `s` after a valid footer whose sync flag falls: `st_unsync` set, the receive frame in progress discarded and counted, the
transmit frame in flight back at its first chunk (41_credit_tracker.md R211, 43_data_framer.md R265, R282). -/
def State.afterSyncFall (s : State) (f : Footer) : State :=
  State.dropIfAsm
    { s.received with
      txc := f.txc, rca := f.rca, stallPolls := if f.txc = 0#5 then s.stallPolls else 0
      stExst := s.stExst || f.exst == 1#1, stHdrb := s.stHdrb || f.hdrb == 1#1, syncSeen := false, stUnsync := true
      txcur := s.txcur.map (fun c => ⟨c.frame, 0, 0⟩) }

/-- `s` after an invalid footer: it is counted and latched, the receive frame in progress is discarded and counted, and the
chunk of a data exchange is committed (41_credit_tracker.md R202, 43_data_framer.md R266, R281). -/
def State.afterInvalidFooter (s : State) : State :=
  let u : State := State.dropIfAsm { s.received with cntFtrErr := s.cntFtrErr + 1#32, stFtrerr := true }
  if s.xkind = .data then u.chunkCommitted else u

/-- The responses to caller `c` in a history (30_encoding.md R155, R157). -/
def answersTo (c : Caller) (h : List Indication) : Nat :=
  h.countP (fun i => match i with
    | .resp c' _ => c' == c
    | _ => false)

/-- The commands of caller `c` that are not answered: those it has still to bring, those that the port holds, its pending
transactions and its SHUTDOWN that waits for the drain. Before INIT the engine holds no command (10_state.md R54). -/
def openCommands (c : Caller) (s : State) : Nat :=
  s.inputs.countP (fun e => match e with
    | .cmd c' _ => c' == c
    | _ => false) +
  s.held.countP (fun h => h.caller == c) +
  (if s.phase = .uninit then 0
    else (pendingTxns s).countP (fun t => t.caller == c) + s.shutCaller.toList.countP (fun c' => c' == c))

/-- The transmit frames that a history releases, in order (30_encoding.md R157). -/
def releasedFrames (h : List Indication) : List (List Byte) :=
  h.filterMap (fun i => match i with
    | .txDone f => some f
    | .txUndelivered f => some f
    | .txAborted f => some f
    | _ => none)

/-- The receive frames that a history delivers, in order (30_encoding.md R157). -/
def indicatedFrames (h : List Indication) : List RxFrame :=
  h.filterMap (fun i => match i with
    | .rxFrame b ts => some { bytes := b, ts := ts }
    | _ => none)

/-- When no receive frame is in progress, its buffer and its flag are empty (10_state.md R44). -/
def RxClean (s : State) : Prop := s.rxst = .idle → s.rxbuf = [] ∧ s.rxts = false

/-- The instruction is REG_READ or REG_WRITE. -/
def IsRegCommand (i : Instr) : Prop :=
  (∃ aid mms addr count, i = .regRead aid mms addr count) ∨ (∃ aid mms addr vals, i = .regWrite aid mms addr vals)

/-- The port does not accept the descriptor `d` now: a valid REG descriptor, in a phase that accepts it, while the slot is
occupied and the queue is full (42_control_transactions.md R223, 45_lifecycle_status.md R361). -/
def State.MustHold (s : State) (d : List Word32) : Prop :=
  ∃ i, decode .command d = .ok i ∧ IsRegCommand i ∧ i.WellFormed ∧ (s.phase = .idle ∨ s.phase = .exchanging) ∧
    s.slot ≠ none ∧ s.par.ctrlqCap ≤ s.ctrlq.length

/-- The port has no held command that it could accept now: it holds none, or the oldest must wait. Then the step is that of
the next input (notes/assumptions/4.md). -/
def State.NextIsInput (s : State) : Prop := ∀ h rest, s.held = h :: rest → s.MustHold h.words

end Sys2Proof.Machine
end

