-- ==== Sys2Proof/Certificates/Slice0/Obligations.lean ====
section
/-! DEFINITION. The statements for the provers. Each docstring names the rules of spec/ it formalises; where a clause is the
model's own choice it names the entry of notes/assumptions/. -/

open Sys2Proof Sys2Proof.Machine

/-! ### Decoding, encoding and the codec -/

/-- Tier 3. Decoding what the encoder writes gives the instruction back, for every well-formed instruction with every operand
at every value (30_encoding.md R111, R115, R117, R122, R126, R152; 20_memory.md R86). -/
def Obligations.DecodeOfEncodeIsTheInstruction : Prop :=
  ∀ i : Instr, i.WellFormed → decode i.port (encode i) = .ok i

/-- Tier 2. Each wire word has one meaning: what the decoder reads from a wire word encodes to that word again, and belongs
to the port it was read at (30_encoding.md R110, R111, R115, R117, R122). -/
def Obligations.EncodeOfDecodedWireWordIsTheWord : Prop :=
  ∀ (port : Port) (w : Word32) (i : Instr), port ≠ .command → decode port [w] = .ok i → encode i = [w] ∧ i.port = port

/-- Tier 2. A descriptor other than TX_ENQUEUE, whose pad bytes are ignored, encodes back to its words; of TX_ENQUEUE the
decoder keeps the first LEN of the bytes that the words carry (30_encoding.md R152, R160). -/
def Obligations.DecodedDescriptorDeterminesItsWords : Prop :=
  ∀ (d : List Word32) (i : Instr), decode .command d = .ok i →
    i.port = .command ∧
      (∀ frame, i = .txEnqueue frame →
        ∃ len ws, d = bareWord opcTxEnqueue :: len :: ws ∧ frame.length = len.toNat ∧ ws.length = wordsFor frame.length ∧
          frame = (ws.flatMap toBE32).take frame.length) ∧
      ((∀ frame, i ≠ .txEnqueue frame) → encode i = d)

/-- Tier 1. A few words written out from the encodings of 30_encoding.md R111, R115, R117 and R152 decode to the instructions
they stand for. -/
def Obligations.SampleWordsDecode : Prop :=
  decode .command [0x01000013#32] = .ok (.init 1#1 0#1 3#2) ∧
    decode .command [0x10840010#32, 0x00000003#32] = .ok (.regRead 1#1 4#4 0x0010#16 3#8) ∧
    decode .command [0x11000004#32, 0x00000001#32, 0x00008006#32] = .ok (.regWrite 0#1 0#4 0x0004#16 [0x00008006#32]) ∧
    decode .command [0x20000000#32, 0x00000005#32, 0x01020304#32, 0x05000000#32] =
      .ok (.txEnqueue [0x01#8, 0x02#8, 0x03#8, 0x04#8, 0x05#8]) ∧
    decode .command [0x41000100#32] = .ok (.statusClear 0x0100#16) ∧
    decode .outbound [0x14001005#32] = .ok (.ctrlHdrRd 1#1 4#4 0x0010#16 2#7 1#1) ∧
    decode .outbound [0x80307F01#32] = .ok (.dataHdr 1#1 1#1 63#6 1#1) ∧
    decode .outbound [0x80000000#32] = .ok (.dataPoll 0#1) ∧
    decode .ctrlIn [0x00000000#32] = .ok .ctrlEchoNoreply0 ∧
    decode .dataIn [0x20204509#32] = .ok (.ftrEof ⟨0#1, 0#1, 1#1, 0#5, 0#2, 0#4, 0#1, 5#6, 0#1, 0#1, 4#5, 1#1⟩)

/-- Tier 2. The round trips of the codec under either parity sense: (a) footers, (b) control headers read as echoes, (c) data
headers; and every encoder output has consistent parity. That is an inference the spec marks as its own ("Round trip", marked
derived, after 40_wire_codec.md R176). -/
def Obligations.CodecRoundTrips : Prop :=
  ∀ sense : ParitySense,
    (∀ (width : Nat) (f : Footer), f.malformed width = false → decodeFooter sense width (encodeFooter sense f) = .valid f) ∧
      (∀ (wnr aid : Bit) (mms : BitVec 4) (addr : BitVec 16) (n : Nat), 1 ≤ n → n ≤ Config.maxRegs →
        decodeEcho sense (toBE32 (encodeCtrlHeader sense wnr aid mms addr n)) =
          .echo { dnc := 0#1, hdrb := 0#1, wnr := wnr, aid := aid, mms := mms, addr := addr,
                  len := BitVec.ofNat 7 (n - 1) }) ∧
      (∀ (sv ev : Bit) (c : Nat), (ev = 1#1 → 1 ≤ c ∧ c ≤ 64) →
        decodeDataHeader sense (toBE32 (encodeDataHeader sense sv ev c)) =
          .valid { dnc := 1#1, seq := 0#1, norx := 0#1, vs := 0#2, dv := 1#1, sv := sv, swo := 0#4, ev := ev,
                   ebo := if ev = 1#1 then BitVec.ofNat 6 (c - 1) else 0#6, tsc := 0#2 }) ∧
      (∀ (wnr aid : Bit) (mms : BitVec 4) (addr : BitVec 16) (n : Nat),
        parityOk sense (encodeCtrlHeader sense wnr aid mms addr n) = true) ∧
      (∀ (sv ev : Bit) (c : Nat), parityOk sense (encodeDataHeader sense sv ev c) = true) ∧
      parityOk sense (pollHeader sense) = true ∧
      (∀ f : Footer, parityOk sense (be32 (encodeFooter sense f)) = true)

/-- Tier 2. A control echo matches the slot's transaction if and only if it is its header, for the transactions that
`mk_txn` makes. That is an inference the spec marks as its own: "MATCH holds if and only if `w = t.hdr`", marked derived, at
the end of 42_control_transactions.md R227. -/
def Obligations.EchoMatchesIffItIsTheHeader : Prop :=
  ∀ (par : Params) (t : Txn) (w : Word32), t.Made par → w ≠ 0#32 → w ≠ 0xFFFFFFFF#32 →
    (classify par.paritySense t w = .matching ↔ w = t.hdr)

/-- Tier 1. The order of the checks of a control echo: no-reply words first, then parity, then the header-bad flag, then the
fields (42_control_transactions.md R227, 60_exceptions.md R394). -/
def Obligations.EchoChecksInOrder : Prop :=
  ∀ (sense : ParitySense) (t : Txn) (w : Word32),
    classify sense t 0#32 = .noReply ∧ classify sense t 0xFFFFFFFF#32 = .noReply ∧
      (w ≠ 0#32 → w ≠ 0xFFFFFFFF#32 →
        (parityOk sense w = false → classify sense t w = .parity) ∧
          (w.extractLsb' 30 1 = 1#1 → classify sense t w = .parity) ∧
          (parityOk sense w = true → w.extractLsb' 30 1 = 0#1 →
            classify sense t w =
              if w.extractLsb' 31 1 = 0#1 ∧ w.extractLsb' 29 1 = t.hdr.extractLsb' 29 1 ∧
                  w.extractLsb' 28 1 = t.hdr.extractLsb' 28 1 ∧ w.extractLsb' 24 4 = t.mms ∧ w.extractLsb' 8 16 = t.addr ∧
                  (w.extractLsb' 1 7).toNat = t.n - 1 then .matching
              else .mismatch))

/-! ### What a step runs -/

/-- Tier 1. A step runs the decoded instruction: a descriptor that the port takes from a caller of which it holds no command,
tagged with its caller; the header that the scheduler selects, on the scheduler's turn; and the word that stands in the
inbound string of the exchange in flight. That holds while the port holds no command, and while the oldest command it holds
must wait (45_lifecycle_status.md R361, 42_control_transactions.md R223, 44_transfer_scheduler.md R316, R318; the list of
inputs, the line of held commands and the scheduler's turn when the list is empty are the model's, notes/assumptions/3.md, 4.md
and 5.md). -/
def Obligations.StepRunsTheDecodedInstruction : Prop :=
  (∀ (s : State) (c : Caller) (d : List Word32) (rest : List Event) (i : Instr), s.NextIsInput →
    (∀ h ∈ s.held, h.caller ≠ c) → s.inputs = .cmd c d :: rest → decode .command d = .ok i →
      step s = exec i { s with inputs := rest, portCaller := c }) ∧
    (∀ (s : State) (rest : List Event) (w : Word32) (i : Instr), s.NextIsInput → s.inputs = .issue :: rest →
      scheduledHeader s = some w → decode .outbound [w] = .ok i → step s = exec i { s with inputs := rest }) ∧
    (∀ (s : State) (w : Word32) (i : Instr), s.NextIsInput → s.inputs = [] →
      scheduledHeader s = some w → decode .outbound [w] = .ok i → step s = exec i s) ∧
    (∀ (s : State) (bytes : List Byte) (rest : List Event) (w : Word32) (i : Instr), s.NextIsInput →
      s.inputs = .complete bytes :: rest → (s.phase = .exchanging ∨ s.phase = .draining) →
      bytes.length = s.xout.length →
      memRead bytes (if s.xkind = .ctrl then 4 else s.cfgW) 4 = toBE32 w →
      decode (if s.xkind = .ctrl then .ctrlIn else .dataIn) [w] = .ok i →
        step s = exec i { s with inputs := rest, xin := bytes })

/-- Tier 1. A descriptor that is no instruction is answered `INVALID` in every phase, with its opcode when that is legal and
0x00 when it is not or when there is none, and changes nothing else (30_encoding.md R153 to R155, 45_lifecycle_status.md
R361; the list of inputs and the line of held commands are the model's, notes/assumptions/3.md and 4.md). -/
def Obligations.InvalidDescriptorIsAnswered : Prop :=
  ∀ (s : State) (c : Caller) (d : List Word32) (rest : List Event) (e : DecodeError), s.NextIsInput →
    (∀ h ∈ s.held, h.caller ≠ c) → s.inputs = .cmd c d :: rest → decode .command d = .error e →
      ∃ opc : BitVec 8,
        step s = .next { s with inputs := rest, history := s.history ++ [.resp c [opc ++ 0#16 ++ 0x07#8]] } ∧
          (d = [] → opc = 0x00#8) ∧
          (∀ w0 ws, d = w0 :: ws →
            opc = if w0.extractLsb' 24 8 ∈
                [0x01#8, 0x02#8, 0x10#8, 0x11#8, 0x20#8, 0x21#8, 0x30#8, 0x31#8, 0x40#8, 0x41#8] then w0.extractLsb' 24 8
              else 0x00#8)

/-- Tier 1. A REG or TX_ENQUEUE command whose count or length is out of range is answered `INVALID` in every phase and
changes nothing else (30_encoding.md R153 V4, V5; the meaning makes these checks, notes/assumptions/10.md). -/
def Obligations.OperandOutOfRangeIsInvalid : Prop :=
  (∀ (s : State) (aid : Bit) (mms : BitVec 4) (addr : BitVec 16) (count : BitVec 8),
    count.toNat = 0 ∨ Config.maxRegs < count.toNat →
      exec (.regRead aid mms addr count) s =
        .next { s with history := s.history ++ [.resp s.portCaller [0x10000007#32]] }) ∧
    (∀ (s : State) (aid : Bit) (mms : BitVec 4) (addr : BitVec 16) (vals : List Word32),
      vals = [] ∨ Config.maxRegs < vals.length →
        exec (.regWrite aid mms addr vals) s =
          .next { s with history := s.history ++ [.resp s.portCaller [0x11000007#32]] }) ∧
    (∀ (s : State) (frame : List Byte), frame = [] ∨ s.par.txMaxFrame < frame.length →
      exec (.txEnqueue frame) s = .next { s with history := s.history ++ [.resp s.portCaller [0x20000007#32]] }) ∧
    (∀ (s : State) (mask : BitVec 16), mask &&& 0xF0E0#16 ≠ 0#16 →
      exec (.statusClear mask) s = .next { s with history := s.history ++ [.resp s.portCaller [0x41000007#32]] })

/-- Tier 1. A wake pulse sets both latches in `IDLE`, `EXCHANGING` and `DRAINING` and has no effect in the other phases
(44_transfer_scheduler.md R311; that the pulse comes next is said with the model's list of inputs and line of held commands,
notes/assumptions/3.md and 4.md). -/
def Obligations.WakeSetsTheLatches : Prop :=
  ∀ (s : State) (rest : List Event), s.NextIsInput → s.inputs = .wake :: rest →
    ((s.phase = .idle ∨ s.phase = .exchanging ∨ s.phase = .draining) →
      step s = .next { s with inputs := rest, irqPending := true, freshWake := true }) ∧
      ((s.phase = .uninit ∨ s.phase = .stopped ∨ s.phase = .failed) → step s = .next { s with inputs := rest })

/-- Tier 1. No step where none is enabled: the scheduler's turn passes when the engine is not idle or has no work; an
outbound word stops unless the engine is idle, and a transport step or an inbound word stops unless an exchange is in flight
and the inbound string has its length (44_transfer_scheduler.md R310, R317, R318, R321; that a step which is not enabled is
a turn passed, or a fault, and the order of the steps, are the model's choice, notes/assumptions/3.md, 4.md, 5.md and 7.md). -/
def Obligations.NoStepWhereNoneIsEnabled : Prop :=
  (∀ (s : State) (rest : List Event), s.NextIsInput → (s.phase ≠ .idle ∨ hasWork s = false) →
    (s.inputs = .issue :: rest → step s = .next { s with inputs := rest }) ∧ (s.inputs = [] → step s = .next s)) ∧
    (∀ (s : State) (i : Instr), i.port = .outbound → s.phase ≠ .idle → exec i s = .fault .notScheduled) ∧
    (∀ (s : State) (i : Instr), i.port = .ctrlIn ∨ i.port = .dataIn → s.phase ≠ .exchanging → s.phase ≠ .draining →
      exec i s = .fault .noExchange) ∧
    (∀ (s : State) (bytes : List Byte) (rest : List Event), s.NextIsInput →
      s.inputs = .fault :: rest ∨ s.inputs = .complete bytes :: rest → s.phase ≠ .exchanging → s.phase ≠ .draining →
        step s = .fault .noExchange) ∧
    (∀ (s : State) (bytes : List Byte) (rest : List Event), s.NextIsInput → s.inputs = .complete bytes :: rest →
      s.phase = .exchanging ∨ s.phase = .draining → bytes.length ≠ s.xout.length → step s = .fault .inboundLength)

/-- Tier 1. A transport fault uses no inbound byte. Outside a drain it records its cause and the engine enters `FAILED`: the
cause is announced and every pending transaction is answered. During a drain it ends in `STOPPED` after the teardown, with
the SHUTDOWN caller answered and no fatal cause recorded (44_transfer_scheduler.md R321 to R324; that the fault comes next is
said with the model's list of inputs and line of held commands, notes/assumptions/3.md and 4.md). -/
def Obligations.TransportFaultFailsOrEndsTheDrain : Prop :=
  ∀ (s : State) (rest : List Event), s.NextIsInput → s.inputs = .fault :: rest →
    (s.phase = .exchanging → s.fatalCause = .none →
      step s = .next (State.failedWith
        { s with inputs := rest, history := s.history ++ [.xferFault], xkind := .none, xout := [], xlen := 0, xin := [] }
        .transportFault)) ∧
      (∀ c, s.phase = .draining → s.shutCaller = some c →
        step s = .next
          { State.tornDown
              { s with inputs := rest, history := s.history ++ [.xferFault], xkind := .none, xout := [], xlen := 0,
                       xin := [] } with
            phase := .stopped, shutCaller := none
            history := (State.tornDown { s with history := s.history ++ [.xferFault] }).history ++
              [.resp c [0x02000000#32]] })

/-! ### Lifecycle, timestamp mode and status -/

/-- Tier 1. INIT from `UNINIT` or `STOPPED` sets every element of 10_state.md R55 to its INIT value and answers `OK`; in any
other phase it is answered `INVALID` and changes nothing else (45_lifecycle_status.md R350, R360, 10_state.md R55,
30_encoding.md R161). -/
def Obligations.InitSetsEveryElement : Prop :=
  ∀ (s : State) (tscap za : Bit) (wcode : BitVec 2),
    (s.phase = .uninit ∨ s.phase = .stopped →
      ∃ t, exec (.init tscap za wcode) s = .next t ∧
        t.cfgWcode = wcode ∧ t.cfgW = [8, 16, 32, 64].getD wcode.toNat 0 ∧ t.cfgZa = (za == 1#1) ∧
        t.cfgTscap = (tscap == 1#1) ∧ t.phase = .idle ∧ t.xkind = .none ∧ t.xout = [] ∧ t.xlen = 0 ∧
        t.irqPending = false ∧ t.freshWake = false ∧ t.stallPolls = 0 ∧ t.fatalCause = .none ∧ t.txc = 0#5 ∧
        t.rca = 0#5 ∧ t.syncSeen = false ∧ t.slot = none ∧ t.ctrlq = [] ∧ t.txq = [] ∧ t.txcur = none ∧
        t.rxst = .idle ∧ t.rxbuf = [] ∧ t.rxts = false ∧ t.rxq = [] ∧ t.stUnsync = false ∧ t.stExst = false ∧
        t.stHdrb = false ∧ t.stUnreach = false ∧ t.stFtrerr = false ∧ t.tsEn = false ∧ t.shutCaller = none ∧
        t.cntRxDrop = 0#32 ∧ t.cntRxOvf = 0#32 ∧ t.cntFtrErr = 0#32 ∧ t.cntTxAbort = 0#32 ∧
        t.history = s.history ++ [.resp s.portCaller [0x01000000#32]] ∧
        t.par = s.par ∧ t.inputs = s.inputs ∧ t.held = s.held ∧ t.portCaller = s.portCaller ∧ t.xin = []) ∧
      (s.phase ≠ .uninit → s.phase ≠ .stopped →
        exec (.init tscap za wcode) s = .next { s with history := s.history ++ [.resp s.portCaller [0x01000007#32]] })

/-- Tier 1. SHUTDOWN in `IDLE` or `FAILED` tears down, stops and answers `OK`; during an exchange it starts the drain and its
answer waits; while draining or stopped it is answered `OK` at once; before INIT it is refused (45_lifecycle_status.md R351,
44_transfer_scheduler.md R323). -/
def Obligations.ShutdownInEveryPhase : Prop :=
  ∀ s : State,
    ((s.phase = .idle ∨ s.phase = .failed) →
      exec .shutdown s = .next
        { s.tornDown with phase := .stopped, history := s.tornDown.history ++ [.resp s.portCaller [0x02000000#32]] }) ∧
      (s.phase = .exchanging →
        exec .shutdown s = .next { s with phase := .draining, shutCaller := some s.portCaller }) ∧
      ((s.phase = .draining ∨ s.phase = .stopped) →
        exec .shutdown s = .next { s with history := s.history ++ [.resp s.portCaller [0x02000000#32]] }) ∧
      (s.phase = .uninit →
        exec .shutdown s = .next { s with history := s.history ++ [.resp s.portCaller [0x02000009#32]] })

/-- Tier 1. TS_ENABLE in every phase: it sets `ts_en` where the capability is present, answers `UNSUPPORTED` where it is
not, `SHUTDOWN` while draining or stopped, `NOT_INITIALIZED` before INIT (45_lifecycle_status.md R352). -/
def Obligations.TimestampEnable : Prop :=
  ∀ s : State,
    ((s.phase = .idle ∨ s.phase = .exchanging ∨ s.phase = .failed) →
      exec .tsEnable s =
        if s.cfgTscap = true then
          .next { s with tsEn := true, history := s.history ++ [.resp s.portCaller [0x30000000#32]] }
        else .next { s with history := s.history ++ [.resp s.portCaller [0x30000008#32]] }) ∧
      ((s.phase = .draining ∨ s.phase = .stopped) →
        exec .tsEnable s = .next { s with history := s.history ++ [.resp s.portCaller [0x30000005#32]] }) ∧
      (s.phase = .uninit →
        exec .tsEnable s = .next { s with history := s.history ++ [.resp s.portCaller [0x30000009#32]] })

/-- Tier 1. TS_DISABLE in every phase: it clears `ts_en` without a capability check, and a frame in progress keeps its flag
(45_lifecycle_status.md R353). -/
def Obligations.TimestampDisable : Prop :=
  ∀ s : State,
    ((s.phase = .idle ∨ s.phase = .exchanging ∨ s.phase = .failed) →
      exec .tsDisable s =
        .next { s with tsEn := false, history := s.history ++ [.resp s.portCaller [0x31000000#32]] }) ∧
      ((s.phase = .draining ∨ s.phase = .stopped) →
        exec .tsDisable s = .next { s with history := s.history ++ [.resp s.portCaller [0x31000005#32]] }) ∧
      (s.phase = .uninit →
        exec .tsDisable s = .next { s with history := s.history ++ [.resp s.portCaller [0x31000009#32]] })

/-- Tier 1. STATUS_READ answers the eight status words in every initialised phase, has no side effect, and is refused before
INIT (45_lifecycle_status.md R354, R358). -/
def Obligations.StatusReadAnswersEightWords : Prop :=
  ∀ s : State,
    (s.phase ≠ .uninit →
      exec .statusRead s = .next
        { s with history := s.history ++ [.resp s.portCaller
            [0x40000000#32, statusS0 s, statusS1 s, s.cntRxDrop, s.cntRxOvf, s.cntFtrErr, s.cntTxAbort, statusS6 s,
              statusS7 s]] }) ∧
      (s.phase = .uninit →
        exec .statusRead s = .next { s with history := s.history ++ [.resp s.portCaller [0x40000009#32]] })

/-- Tier 1. Every field of the status words S0, S1, S6 and S7 stands at its bits, and the bits not listed read 0
(45_lifecycle_status.md R356, R357, R359). -/
def Obligations.StatusWordFields : Prop :=
  ∀ s : State,
    (statusS0 s).extractLsb' 0 3 = BitVec.ofNat 3
        (match s.phase with
          | .uninit => 0 | .idle => 1 | .exchanging => 2 | .draining => 3 | .stopped => 4 | .failed => 5) ∧
      (statusS0 s).extractLsb' 3 2 = BitVec.ofNat 2
        (match s.fatalCause with | .none => 0 | .linkStalled => 1 | .transportFault => 2) ∧
      (statusS0 s).getLsbD 5 = s.irqPending ∧ (statusS0 s).getLsbD 6 = s.freshWake ∧
      (statusS0 s).getLsbD 7 = s.syncSeen ∧ (statusS0 s).getLsbD 8 = s.tsEn ∧ (statusS0 s).getLsbD 9 = s.cfgZa ∧
      (statusS0 s).getLsbD 10 = s.cfgTscap ∧ (statusS0 s).extractLsb' 11 2 = s.cfgWcode ∧
      (statusS0 s).getLsbD 13 = decide (s.rxst = .asm) ∧ (statusS0 s).getLsbD 14 = s.txcur.isSome ∧
      (statusS0 s).getLsbD 15 = false ∧ (statusS0 s).getLsbD 16 = s.stUnsync ∧ (statusS0 s).getLsbD 17 = s.stExst ∧
      (statusS0 s).getLsbD 18 = s.stHdrb ∧ (statusS0 s).getLsbD 19 = s.stUnreach ∧
      (statusS0 s).getLsbD 20 = s.stFtrerr ∧ (statusS0 s).extractLsb' 21 11 = 0#11 ∧
      (statusS1 s).extractLsb' 0 5 = s.txc ∧ (statusS1 s).extractLsb' 5 3 = 0#3 ∧ (statusS1 s).extractLsb' 8 5 = s.rca ∧
      (statusS1 s).extractLsb' 13 3 = 0#3 ∧ ((statusS1 s).extractLsb' 16 16).toNat = min s.stallPolls 0xFFFF ∧
      ((statusS6 s).extractLsb' 0 16).toNat = min s.txq.length 0xFFFF ∧
      ((statusS6 s).extractLsb' 16 16).toNat = min s.rxq.length 0xFFFF ∧
      (statusS7 s).getLsbD 0 = s.slot.isSome ∧ (statusS7 s).extractLsb' 1 15 = 0#15 ∧
      ((statusS7 s).extractLsb' 16 16).toNat = min s.ctrlq.length 0xFFFF

/-- Tier 1. STATUS_CLEAR sets to 0 exactly the sticky flags and counters that the mask selects, in every initialised phase,
and is refused before INIT; a mask with a reserved bit is answered `INVALID` in every phase (45_lifecycle_status.md R355). -/
def Obligations.StatusClearClearsTheSelected : Prop :=
  ∀ (s : State) (mask : BitVec 16),
    (mask &&& 0xF0E0#16 ≠ 0#16 →
      exec (.statusClear mask) s = .next { s with history := s.history ++ [.resp s.portCaller [0x41000007#32]] }) ∧
      (mask &&& 0xF0E0#16 = 0#16 → s.phase ≠ .uninit →
        exec (.statusClear mask) s = .next
          { s with
            stUnsync := if mask.getLsbD 0 then false else s.stUnsync
            stExst := if mask.getLsbD 1 then false else s.stExst
            stHdrb := if mask.getLsbD 2 then false else s.stHdrb
            stUnreach := if mask.getLsbD 3 then false else s.stUnreach
            stFtrerr := if mask.getLsbD 4 then false else s.stFtrerr
            cntRxDrop := if mask.getLsbD 8 then 0#32 else s.cntRxDrop
            cntRxOvf := if mask.getLsbD 9 then 0#32 else s.cntRxOvf
            cntFtrErr := if mask.getLsbD 10 then 0#32 else s.cntFtrErr
            cntTxAbort := if mask.getLsbD 11 then 0#32 else s.cntTxAbort
            history := s.history ++ [.resp s.portCaller [0x41000000#32]] }) ∧
      (mask &&& 0xF0E0#16 = 0#16 → s.phase = .uninit →
        exec (.statusClear mask) s = .next { s with history := s.history ++ [.resp s.portCaller [0x41000009#32]] })

/-! ### Control transactions -/

/-- Tier 1. A valid REG_READ or REG_WRITE in `IDLE` or `EXCHANGING` takes the slot when it is empty, else joins the queue
while there is room, else is held outside the engine with nothing of the engine changed; the first two set `fresh_wake`
(42_control_transactions.md R220 to R223; the line of held commands is the model's, notes/assumptions/4.md). -/
def Obligations.RegCommandIsSubmitted : Prop :=
  ∀ (s : State) (i : Instr) (t : Txn), s.phase = .idle ∨ s.phase = .exchanging →
    ((∃ aid mms addr count, 1 ≤ count.toNat ∧ count.toNat ≤ Config.maxRegs ∧ i = .regRead aid mms addr count ∧
        t = { op := .rd, aid := aid, mms := mms, addr := addr, n := count.toNat, wvals := [], caller := s.portCaller,
              hdr := encodeCtrlHeader s.par.paritySense 0#1 aid mms addr count.toNat, pfail := 0, nrep := 0 }) ∨
      (∃ aid mms addr vals, 1 ≤ vals.length ∧ vals.length ≤ Config.maxRegs ∧ i = .regWrite aid mms addr vals ∧
        t = { op := .wr, aid := aid, mms := mms, addr := addr, n := vals.length, wvals := vals, caller := s.portCaller,
              hdr := encodeCtrlHeader s.par.paritySense 1#1 aid mms addr vals.length, pfail := 0, nrep := 0 })) →
    (s.slot = none → exec i s = .next { s with slot := some t, freshWake := true }) ∧
      (s.slot ≠ none → s.ctrlq.length < s.par.ctrlqCap →
        exec i s = .next { s with ctrlq := s.ctrlq ++ [t], freshWake := true }) ∧
      (s.slot ≠ none → s.par.ctrlqCap ≤ s.ctrlq.length →
        exec i s = .next { s with held := s.held ++ [{ caller := s.portCaller, words := encode i }] })

/-- Tier 1. REG_READ, REG_WRITE and TX_ENQUEUE with valid operands in the phases that do not accept them are answered with
the phase's code and change nothing else (45_lifecycle_status.md R360). -/
def Obligations.PhaseRejectsRegAndTx : Prop :=
  ∀ (s : State) (i : Instr) (opc : BitVec 8) (code : BitVec 8),
    ((opc = 0x10#8 ∧ ∃ aid mms addr count, 1 ≤ count.toNat ∧ count.toNat ≤ Config.maxRegs ∧
        i = .regRead aid mms addr count) ∨
      (opc = 0x11#8 ∧ ∃ aid mms addr vals, 1 ≤ vals.length ∧ vals.length ≤ Config.maxRegs ∧
        i = .regWrite aid mms addr vals) ∨
      (opc = 0x20#8 ∧ ∃ frame, 1 ≤ frame.length ∧ frame.length ≤ s.par.txMaxFrame ∧ i = .txEnqueue frame)) →
    ((s.phase = .uninit ∧ code = 0x09#8) ∨ ((s.phase = .draining ∨ s.phase = .stopped) ∧ code = 0x05#8) ∨
      (s.phase = .failed ∧ s.fatalCause = .linkStalled ∧ code = 0x04#8) ∨
      (s.phase = .failed ∧ s.fatalCause = .transportFault ∧ code = 0x03#8)) →
      exec i s = .next { s with history := s.history ++ [.resp s.portCaller [opc ++ 0#16 ++ code]] }

/-- Tier 2. A command that the port holds. While the oldest is a valid REG command, the phase accepts it, and the slot and the
queue are full, it stays outside the engine and the step is that of the next input, whichever it is; a command of a caller
that the port holds a command of waits behind it. Else the oldest held command is the next that the port accepts, before any
input: it runs, in a phase that rejects it it is answered with the phase's code, and an invalid descriptor is answered
`INVALID` (42_control_transactions.md R223, 45_lifecycle_status.md R360, R361, 20_memory.md R93; the line and the moment of
acceptance are the model's choice, notes/assumptions/4.md). -/
def Obligations.HeldCommandWaitsForRoom : Prop :=
  ∀ (s : State) (c : Caller) (d : List Word32) (others : List Submission), s.held = ⟨c, d⟩ :: others →
    (s.MustHold d →
      step s = runFetched (fetchInput s) ∧
        (∀ c' d' rest, s.inputs = .cmd c' d' :: rest → (∃ h ∈ s.held, h.caller = c') →
          step s = .next { s with inputs := rest, held := s.held ++ [⟨c', d'⟩] })) ∧
      (¬s.MustHold d →
        (∀ i, decode .command d = .ok i → step s = exec i { s with held := others, portCaller := c }) ∧
          (∀ e, decode .command d = .error e → ∃ opc : BitVec 8,
            step s = .next { s with held := others, history := s.history ++ [.resp c [opc ++ 0#16 ++ 0x07#8]] })) ∧
      (∀ (i : Instr) (opc code : BitVec 8), decode .command d = .ok i → i.WellFormed →
        ((opc = 0x10#8 ∧ ∃ aid mms addr count, i = .regRead aid mms addr count) ∨
          (opc = 0x11#8 ∧ ∃ aid mms addr vals, i = .regWrite aid mms addr vals)) →
        ((s.phase = .uninit ∧ code = 0x09#8) ∨ ((s.phase = .draining ∨ s.phase = .stopped) ∧ code = 0x05#8) ∨
          (s.phase = .failed ∧ s.fatalCause = .linkStalled ∧ code = 0x04#8) ∨
          (s.phase = .failed ∧ s.fatalCause = .transportFault ∧ code = 0x03#8)) →
          step s = .next { s with held := others, portCaller := c,
                                  history := s.history ++ [.resp c [opc ++ 0#16 ++ code]] })

/-- Tier 1. CTRL_HDR_RD and CTRL_HDR_WR: the idle scheduler sends the control exchange of the slot's transaction, its header
first, the values of a write or zeros for a read, and four zero bytes; the wake latches are untouched
(42_control_transactions.md R225, 44_transfer_scheduler.md R316). -/
def Obligations.ControlHeaderIsSent : Prop :=
  ∀ (s : State) (t : Txn) (aid : Bit) (mms : BitVec 4) (addr : BitVec 16) (len : BitVec 7) (p : Bit), s.phase = .idle →
    s.slot = some t →
    (t.hdr = 0#3 ++ aid ++ mms ++ addr ++ len ++ p →
      exec (.ctrlHdrRd aid mms addr len p) s = .next
        { s with phase := .exchanging, xkind := .ctrl, xlen := 0
                 xout := toBE32 t.hdr ++ (if t.op = .wr then t.wvals.flatMap toBE32 else zeros (4 * t.n)) ++ zeros 4
                 history := s.history ++ [.xferReq
                   (toBE32 t.hdr ++ (if t.op = .wr then t.wvals.flatMap toBE32 else zeros (4 * t.n)) ++ zeros 4)] }) ∧
      (t.hdr = 1#3 ++ aid ++ mms ++ addr ++ len ++ p →
        exec (.ctrlHdrWr aid mms addr len p) s = .next
          { s with phase := .exchanging, xkind := .ctrl, xlen := 0
                   xout := toBE32 t.hdr ++ (if t.op = .wr then t.wvals.flatMap toBE32 else zeros (4 * t.n)) ++ zeros 4
                   history := s.history ++ [.xferReq
                     (toBE32 t.hdr ++ (if t.op = .wr then t.wvals.flatMap toBE32 else zeros (4 * t.n)) ++ zeros 4)] })

/-- Tier 2. CTRL_ECHO with the echo of the slot's header answers the transaction `OK`, a read with its data words and a write
with none whatever the remote returned, and moves the next transaction up (42_control_transactions.md R224, R228, R235,
R236). A header of all zeros, which only `PARITY_SENSE = EVEN` allows, is a no-reply word instead (R227). Then the exchange
ends, in `IDLE`, or while draining in the teardown (44_transfer_scheduler.md R318). -/
def Obligations.MatchingEchoAnswersOk : Prop :=
  ∀ (s : State) (t : Txn) (dnc hdrb wnr aid : Bit) (mms : BitVec 4) (addr : BitVec 16) (len : BitVec 7) (p : Bit),
    s.fatalCause = .none → s.slot = some t → t.Made s.par →
    t.hdr = dnc ++ hdrb ++ wnr ++ aid ++ mms ++ addr ++ len ++ p → s.EchoArrives t.hdr → t.hdr ≠ 0#32 →
      exec (.ctrlEcho dnc hdrb wnr aid mms addr len p) s = .next (s.received.answerSlot t .ok
        (if t.op = .rd then (List.range t.n).map (fun i => be32 ((s.xin.drop (8 + 4 * i)).take 4)) else [])).ended

/-- Tier 2. CTRL_ECHO with consistent parity, no header-bad flag and a field that differs from the request answers
`REPLY_MISMATCH` at once; then the exchange ends (42_control_transactions.md R227, R229, 44_transfer_scheduler.md R318). -/
def Obligations.MismatchingEchoFailsAtOnce : Prop :=
  ∀ (s : State) (t : Txn) (dnc wnr aid : Bit) (mms : BitVec 4) (addr : BitVec 16) (len : BitVec 7) (p : Bit),
    s.fatalCause = .none → s.slot = some t → t.Made s.par →
    s.EchoArrives (dnc ++ 0#1 ++ wnr ++ aid ++ mms ++ addr ++ len ++ p) →
    parityOk s.par.paritySense (dnc ++ 0#1 ++ wnr ++ aid ++ mms ++ addr ++ len ++ p) = true →
    (dnc ++ 0#1 ++ wnr ++ aid ++ mms ++ addr ++ len ++ p : Word32) ≠ 0#32 →
    (dnc ++ 0#1 ++ wnr ++ aid ++ mms ++ addr ++ len ++ p : Word32) ≠ t.hdr →
      exec (.ctrlEcho dnc 0#1 wnr aid mms addr len p) s = .next (s.received.answerSlot t .replyMismatch []).ended

/-- Tier 2. CTRL_ECHO with inconsistent parity or with the header-bad flag, and no no-reply word: the transaction stays in
the slot with its parity failures counted, and is answered `PARITY_ERROR` when they exceed `PARITY_RETRY_MAX`; then the
exchange ends (42_control_transactions.md R227, R230, 44_transfer_scheduler.md R318). -/
def Obligations.ParityFailureIsRetriedUpToTheBound : Prop :=
  ∀ (s : State) (t : Txn) (dnc hdrb wnr aid : Bit) (mms : BitVec 4) (addr : BitVec 16) (len : BitVec 7) (p : Bit),
    s.fatalCause = .none → s.slot = some t →
    s.EchoArrives (dnc ++ hdrb ++ wnr ++ aid ++ mms ++ addr ++ len ++ p) →
    (dnc ++ hdrb ++ wnr ++ aid ++ mms ++ addr ++ len ++ p : Word32) ≠ 0#32 →
    (dnc ++ hdrb ++ wnr ++ aid ++ mms ++ addr ++ len ++ p : Word32) ≠ 0xFFFFFFFF#32 →
    (parityOk s.par.paritySense (dnc ++ hdrb ++ wnr ++ aid ++ mms ++ addr ++ len ++ p) = false ∨ hdrb = 1#1) →
      exec (.ctrlEcho dnc hdrb wnr aid mms addr len p) s =
        if s.par.parityRetryMax < t.pfail + 1 then .next (s.received.answerSlot t .parityError []).ended
        else .next (State.ended { s.received with slot := some { t with pfail := t.pfail + 1 } })

/-- Tier 2. CTRL_ECHO_NOREPLY_0 and CTRL_ECHO_NOREPLY_1: the transaction stays in the slot with the exchange counted, and is
answered `DEVICE_UNREACHABLE` with `st_unreach` set when `CTRL_TIMEOUT_ITERS` of its exchanges had no reply; then the exchange
ends (42_control_transactions.md R227, R231, 44_transfer_scheduler.md R318). -/
def Obligations.NoReplyTimesOut : Prop :=
  ∀ (s : State) (t : Txn) (i : Instr), s.fatalCause = .none → s.slot = some t →
    ((i = .ctrlEchoNoreply0 ∧ s.EchoArrives 0#32) ∨ (i = .ctrlEchoNoreply1 ∧ s.EchoArrives 0xFFFFFFFF#32)) →
      exec i s =
        if s.par.ctrlTimeoutIters ≤ t.nrep + 1 then
          .next (State.ended { s.received.answerSlot t .deviceUnreachable [] with stUnreach := true })
        else .next (State.ended { s.received with slot := some { t with nrep := t.nrep + 1 } })

/-- Tier 2. A completed control exchange changes no credit, sync or receive state, whatever its echo
(41_credit_tracker.md R203, 44_transfer_scheduler.md R320): whenever an echo word completes in a running engine, the
transmit frames, the counters and the configuration are as before too. -/
def Obligations.ControlCompletionLeavesTheDataPath : Prop :=
  ∀ (s t : State) (i : Instr), i.port = .ctrlIn → s.phase = .exchanging → s.fatalCause = .none → exec i s = .next t →
    t.txc = s.txc ∧ t.rca = s.rca ∧ t.syncSeen = s.syncSeen ∧ t.stallPolls = s.stallPolls ∧ t.rxst = s.rxst ∧
      t.rxbuf = s.rxbuf ∧ t.rxts = s.rxts ∧ t.rxq = s.rxq ∧ t.txq = s.txq ∧ t.txcur = s.txcur ∧
      t.irqPending = s.irqPending ∧ t.freshWake = s.freshWake ∧ t.cntRxDrop = s.cntRxDrop ∧ t.cntRxOvf = s.cntRxOvf ∧
      t.cntFtrErr = s.cntFtrErr ∧ t.cntTxAbort = s.cntTxAbort ∧ t.stUnsync = s.stUnsync ∧ t.stExst = s.stExst ∧
      t.stHdrb = s.stHdrb ∧ t.stFtrerr = s.stFtrerr ∧ t.tsEn = s.tsEn ∧ t.par = s.par ∧ t.cfgW = s.cfgW ∧
      t.cfgWcode = s.cfgWcode ∧ t.cfgZa = s.cfgZa ∧ t.cfgTscap = s.cfgTscap ∧ t.inputs = s.inputs ∧ t.held = s.held ∧
      t.phase = .idle ∧ t.xkind = .none

/-! ### The transmit side -/

/-- Tier 1. TX_ENQUEUE of a valid frame in `IDLE` or `EXCHANGING`: `BUSY` when the queue is at its capacity, else the frame
joins the end of the queue, `fresh_wake` is set and the answer is `OK` (43_data_framer.md R260). -/
def Obligations.TxEnqueueAcceptsOrIsBusy : Prop :=
  ∀ (s : State) (frame : List Byte), 1 ≤ frame.length → frame.length ≤ s.par.txMaxFrame →
    s.phase = .idle ∨ s.phase = .exchanging →
      exec (.txEnqueue frame) s =
        if s.txq.length = s.par.txqCap then
          .next { s with history := s.history ++ [.resp s.portCaller [0x20000006#32]] }
        else
          .next { s with txq := s.txq ++ [frame], freshWake := true
                         history := s.history ++ [.resp s.portCaller [0x20000000#32]] }

/-- Tier 1. DATA_POLL: the idle scheduler with work, no control transaction, and no credit or nothing to send, sends a credit
poll, counts it toward the stall bound when transmit data waits, and clears both wake latches (44_transfer_scheduler.md R315,
R316, 41_credit_tracker.md R206, R207, 30_encoding.md R126). -/
def Obligations.CreditPollIsSent : Prop :=
  ∀ (s : State) (p : Bit), s.phase = .idle → s.slot = none → hasWork s = true → (txAvail s = true → s.txc = 0#5) →
    p = (if s.par.paritySense = .odd then 0#1 else 1#1) →
      exec (.dataPoll p) s = .next
        { s with phase := .exchanging, xkind := .poll, xlen := 0, irqPending := false, freshWake := false
                 stallPolls := if txAvail s = true then s.stallPolls + 1 else s.stallPolls
                 xout := [0x80#8, 0x00#8, 0x00#8, 0#7 ++ p] ++ List.replicate s.cfgW 0#8
                 history := s.history ++ [.xferReq ([0x80#8, 0x00#8, 0x00#8, 0#7 ++ p] ++ List.replicate s.cfgW 0#8)] }

/-- Tier 2. DATA_HDR: the idle scheduler with credit, transmit data and no control transaction sends the next chunk of the
frame in flight, or of the head of the queue, which it takes from the queue when no frame is in flight: SV on the first
chunk, EV and the end offset on the last, the frame bytes from the cursor, zero padding; one credit is spent and both wake
latches are cleared (43_data_framer.md R261, R262, 44_transfer_scheduler.md R316, 41_credit_tracker.md R201). -/
def Obligations.DataChunkIsSent : Prop :=
  ∀ (s : State) (c : TxCur) (q : List (List Byte)) (len : Nat) (sv ev : Bit) (ebo : BitVec 6) (p : Bit),
    s.phase = .idle → s.slot = none → s.txc ≠ 0#5 →
    ((s.txcur = some c ∧ q = s.txq) ∨ (s.txcur = none ∧ s.txq = c.frame :: q ∧ c.cur = 0 ∧ c.hret = 0)) →
    len = min s.cfgW (c.frame.length - c.cur) → sv = (if c.cur = 0 then 1#1 else 0#1) →
    ev = (if c.cur + len = c.frame.length then 1#1 else 0#1) →
    ebo = (if c.cur + len = c.frame.length then BitVec.ofNat 6 (len - 1) else 0#6) →
    parityOk s.par.paritySense (dataWord sv ev ebo p) = true →
      exec (.dataHdr sv ev ebo p) s = .next
        { s with phase := .exchanging, xkind := .data, xlen := len, irqPending := false, freshWake := false
                 txc := s.txc - 1#5, txcur := some c, txq := q
                 xout := toBE32 (dataWord sv ev ebo p) ++ ((c.frame.drop c.cur).take len ++ List.replicate (s.cfgW - len) 0#8)
                 history := s.history ++ [.xferReq (toBE32 (dataWord sv ev ebo p) ++
                   ((c.frame.drop c.cur).take len ++ List.replicate (s.cfgW - len) 0#8))] }

/-- Tier 1. What the scheduler sends next: the slot's transaction when there is one, else a data chunk when transmit data
waits and there is credit, else a credit poll (44_transfer_scheduler.md R313 to R315). -/
def Obligations.ControlFirstThenDataThenPoll : Prop :=
  ∀ s : State,
    (select s = .ctrl ↔ s.slot ≠ none) ∧
      (select s = .data ↔ s.slot = none ∧ (s.txcur ≠ none ∨ s.txq ≠ []) ∧ 1 ≤ s.txc.toNat) ∧
      (select s = .poll ↔ s.slot = none ∧ ¬((s.txcur ≠ none ∨ s.txq ≠ []) ∧ 1 ≤ s.txc.toNat)) ∧
      (hasWork s = true ↔ s.slot ≠ none ∨ (s.txcur ≠ none ∨ s.txq ≠ []) ∨ s.irqPending = true ∨ 0 < s.rca.toNat ∨
        (s.freshWake = true ∧ s.txc.toNat = 0))

/-- Tier 2. After a data chunk, a valid footer whose sync flag does not fall and without the header-bad flag commits the
chunk: the cursor moves by the chunk's bytes, or the frame is released as done (43_data_framer.md R263). With the flag the
chunk is not committed: the rejections are counted and the frame is aborted when they exceed `PARITY_RETRY_MAX`
(43_data_framer.md R264). Both for every footer row, with or without credit, in an engine that neither drains nor stalls. -/
def Obligations.ChunkIsCommittedOrRejected : Prop :=
  ∀ (s : State) (i : Instr) (f : Footer) (p : Bit) (c : TxCur), footerRow i = some (f, p) →
    s.FooterArrives (footerWord f p) → ValidFooter s f p → s.phase = .exchanging → s.xkind = .data →
    s.fatalCause = .none → s.txcur = some c → ¬(s.syncSeen = true ∧ f.sync = 0#1) → NoStall s f.txc →
      ∃ t l, exec i s = .next t ∧ t.phase = .idle ∧ t.txq = s.txq ∧
        (f.hdrb = 0#1 →
          t.txcur = (if c.cur + s.xlen = c.frame.length then none else some ⟨c.frame, c.cur + s.xlen, 0⟩) ∧
          t.cntTxAbort = s.cntTxAbort ∧
          t.history = s.history ++ [.xferIn s.xin] ++
            (if c.cur + s.xlen = c.frame.length then [.txDone c.frame] else []) ++ l) ∧
        (f.hdrb = 1#1 →
          t.txcur = (if s.par.parityRetryMax < c.hret + 1 then none else some ⟨c.frame, c.cur, c.hret + 1⟩) ∧
          t.cntTxAbort = (if s.par.parityRetryMax < c.hret + 1 then s.cntTxAbort + 1#32 else s.cntTxAbort) ∧
          t.history = s.history ++ [.xferIn s.xin] ++
            (if s.par.parityRetryMax < c.hret + 1 then [.txAborted c.frame] else []) ++ l) ∧
        (∀ e ∈ l, ∃ bytes ts, e = .rxFrame bytes ts)

/-- Tier 2. The segmentation law: a frame of L bytes is sent in N = ceil(L / W) chunks from cursors 0, W, 2W, ...; chunk k
carries the frame bytes from k W, W of them or what is left, then zeros; chunk 0 alone has SV, chunk N - 1 alone has EV, with
the end count L mod W, or W when W divides L; together the chunks carry the frame. That is an inference the spec marks as its
own ("Segmentation law", marked derived, after 43_data_framer.md R266). -/
def Obligations.SegmentationLaw : Prop :=
  ∀ (sense : ParitySense) (frame : List Byte) (width hret N : Nat), 1 ≤ width → 1 ≤ frame.length →
    N = (frame.length + width - 1) / width →
      (∀ k, k < N →
        (let c : TxCur := ⟨frame, k * width, hret⟩
         let last := if frame.length % width = 0 then width else frame.length % width
         chunkLen width c = (if k + 1 = N then last else width) ∧ k * width < frame.length ∧
          (k * width + chunkLen width c = frame.length ↔ k + 1 = N) ∧
          (k + 1 ≠ N → k * width + chunkLen width c = (k + 1) * width) ∧
          chunkPayload width c = (frame.drop (k * width)).take width ++ zeros (width - chunkLen width c) ∧
          chunkHeader sense width c =
            encodeDataHeader sense (if k = 0 then 1#1 else 0#1) (if k + 1 = N then 1#1 else 0#1)
              (if k + 1 = N then last else width))) ∧
      (List.range N).flatMap (fun k => (chunkPayload width ⟨frame, k * width, hret⟩).take
        (chunkLen width ⟨frame, k * width, hret⟩)) = frame

/-! ### The receive side -/

/-- Tier 1. RX_POLL in every initialised phase answers with the oldest delivered frame and removes it, or answers that there
is none; before INIT it is refused (43_data_framer.md R283). For a frame of more than 65535 bytes the length in word 2 is the
model's choice, the length modulo 2^32 (notes/assumptions/20.md). -/
def Obligations.RxPollTakesTheOldestFrame : Prop :=
  ∀ s : State,
    (s.phase = .uninit →
      exec .rxPoll s = .next { s with history := s.history ++ [.resp s.portCaller [0x21000009#32]] }) ∧
      (s.phase ≠ .uninit → s.rxq = [] →
        exec .rxPoll s = .next { s with history := s.history ++ [.resp s.portCaller [0x21000000#32, 0#32]] }) ∧
      (∀ f rest, s.phase ≠ .uninit → s.rxq = f :: rest →
        exec .rxPoll s = .next
          { s with rxq := rest
                   history := s.history ++ [.resp s.portCaller
                     (0x21000000#32 :: (if f.ts = true then 3#32 else 1#32) :: BitVec.ofNat 32 f.bytes.length ::
                       pack f.bytes)] })

/-- Tier 2. A valid footer of any of the five rows replaces the credit and the receive availability by its own values,
latches the extended-status and header-bad flags and records the sync flag, and leaves what no footer changes as it is
(41_credit_tracker.md R200, R211 to R213). -/
def Obligations.ValidFooterReplacesCredit : Prop :=
  ∀ (s : State) (i : Instr) (f : Footer) (p : Bit), footerRow i = some (f, p) → s.FooterArrives (footerWord f p) →
    ValidFooter s f p →
      ∃ t, exec i s = .next t ∧ t.txc = f.txc ∧ t.rca = f.rca ∧ t.syncSeen = (f.sync == 1#1) ∧
        t.stExst = (s.stExst || f.exst == 1#1) ∧ t.stHdrb = (s.stHdrb || f.hdrb == 1#1) ∧
        t.stUnsync = (s.stUnsync || (s.syncSeen && f.sync == 0#1)) ∧ t.stFtrerr = s.stFtrerr ∧
        t.cntFtrErr = s.cntFtrErr ∧ FooterFrame s t

/-- Tier 2. An invalid footer (wrong parity or malformed) of any of the five rows is counted and latched, changes no credit,
sync or status element, and discards the receive frame in progress, which is counted (41_credit_tracker.md R202,
43_data_framer.md R281). -/
def Obligations.InvalidFooterIsCountedAndTrustsNothing : Prop :=
  ∀ (s : State) (i : Instr) (f : Footer) (p : Bit), footerRow i = some (f, p) → s.FooterArrives (footerWord f p) →
    ¬ValidFooter s f p →
      ∃ t, exec i s = .next t ∧ t.cntFtrErr = s.cntFtrErr + 1#32 ∧ t.stFtrerr = true ∧ t.txc = s.txc ∧ t.rca = s.rca ∧
        t.syncSeen = s.syncSeen ∧ t.stUnsync = s.stUnsync ∧ t.stExst = s.stExst ∧ t.stHdrb = s.stHdrb ∧
        t.rxst = .idle ∧ t.rxq = s.rxq ∧ t.cntRxOvf = s.cntRxOvf ∧
        t.cntRxDrop = (if s.rxst = .asm then s.cntRxDrop + 1#32 else s.cntRxDrop) ∧ FooterFrame s t

/-- Tier 2. An invalid footer of any of the five rows after a data or poll exchange: it is counted and latched, the receive
frame in progress is discarded and counted, and a data chunk is committed as if it had been accepted; then the link stall
check runs and the exchange ends (43_data_framer.md R263, R266, R281, 41_credit_tracker.md R202, R209,
44_transfer_scheduler.md R318, R319). -/
def Obligations.InvalidFooterCommitsTheChunk : Prop :=
  ∀ (s : State) (i : Instr) (f : Footer) (p : Bit), footerRow i = some (f, p) →
    s.FooterArrives (footerWord f p) → ¬ValidFooter s f p → s.fatalCause = .none →
      exec i s = .next s.afterInvalidFooter.settled

/-- Tier 2. A sync flag that falls from 1 to 0 is a remote reset: `st_unsync` is set, the receive frame in progress is
discarded and counted and the payload not used, the transmit frame in flight restarts at its first chunk and its chunk is not
committed; then the link stall check runs and the exchange ends (41_credit_tracker.md R209, R211, 43_data_framer.md R265, R282,
44_transfer_scheduler.md R318, R319). For every footer row, after a data or poll exchange. -/
def Obligations.SyncFallResetsBothDirections : Prop :=
  ∀ (s : State) (i : Instr) (f : Footer) (p : Bit), footerRow i = some (f, p) → s.FooterArrives (footerWord f p) →
    ValidFooter s f p → s.fatalCause = .none → s.syncSeen = true → f.sync = 0#1 →
      exec i s = .next (s.afterSyncFall f).settled

/-- Tier 2. FTR_NODATA after a data or poll exchange: the payload is ignored; the frame in progress is discarded only with the
frame-drop flag (43_data_framer.md R271). Before it the transmit side of a data exchange, after it the stall check and the end
of the exchange (44_transfer_scheduler.md R318, R319). -/
def Obligations.FooterWithoutData : Prop :=
  ∀ (s : State) (b : FooterBits), s.FooterArrives (footerWord (footerOf 0#1 0#1 0#1 b) b.p) →
    ValidFooter s (footerOf 0#1 0#1 0#1 b) b.p → SyncHeld s b →
      exec (.ftrNodata 0#1 0#1 b) s =
        if b.fd = 1#1 then .next (s.afterFooter b).dropIfAsm.settled else .next (s.afterFooter b).settled

/-- Tier 2. FTR_CONT after a data or poll exchange: all W payload bytes extend the frame in progress, which is discarded and
counted when they exceed `RX_MAX_FRAME`; with the frame-drop flag it is discarded and counted; without a frame in progress the
payload is ignored (43_data_framer.md R275, R277). Before it the transmit side of a data exchange, after it the stall check and
the end of the exchange (44_transfer_scheduler.md R318, R319). -/
def Obligations.ContinuationExtendsTheFrame : Prop :=
  ∀ (s : State) (b : FooterBits), s.FooterArrives (footerWord (footerOf 1#1 0#1 0#1 b) b.p) →
    ValidFooter s (footerOf 1#1 0#1 0#1 b) b.p → SyncHeld s b → 1 ≤ s.cfgW →
      exec (.ftrCont b) s = .next (State.settled
        (if s.rxst = .idle then s.afterFooter b
          else if b.fd = 1#1 ∨ s.par.rxMaxFrame < s.rxbuf.length + s.cfgW then (s.afterFooter b).dropped
          else { s.afterFooter b with rxbuf := s.rxbuf ++ s.xin.take s.cfgW }))

/-- Tier 2. FTR_SOF after a data or poll exchange: a frame in progress is discarded and counted; a new frame begins with the
bytes from `4 * SWO` to the end of the payload and with the timestamp flag of `ts_en` and RTSA, unless the frame-drop flag is
set or zero-alignment makes a start at a non-zero byte ineligible (43_data_framer.md R274, R276, R280, R284). Before it the
transmit side of a data exchange, after it the stall check and the end of the exchange (44_transfer_scheduler.md R318, R319). -/
def Obligations.StartOfFrameBeginsAFrame : Prop :=
  ∀ (s : State) (b : FooterBits), s.FooterArrives (footerWord (footerOf 1#1 1#1 0#1 b) b.p) →
    ValidFooter s (footerOf 1#1 1#1 0#1 b) b.p → SyncHeld s b → 1 ≤ s.cfgW →
      exec (.ftrSof b) s = .next (State.settled
        (if b.fd = 1#1 ∨ (s.cfgZa = true ∧ b.swo ≠ 0#4) then (s.afterFooter b).dropIfAsm
          else (s.afterFooter b).dropIfAsm.started ((s.xin.take s.cfgW).drop (4 * b.swo.toNat)) b.rtsa))

/-- Tier 2. FTR_EOF after a data or poll exchange: the frame in progress ends at byte EBO and is delivered, or discarded and
counted with the frame-drop flag or when it exceeds `RX_MAX_FRAME`; without a frame in progress the end is ignored
(43_data_framer.md R273, R277, R278). Before it the transmit side of a data exchange, after it the stall check and the end of
the exchange (44_transfer_scheduler.md R318, R319). -/
def Obligations.EndOfFrameDeliversTheFrame : Prop :=
  ∀ (s : State) (b : FooterBits), s.FooterArrives (footerWord (footerOf 1#1 0#1 1#1 b) b.p) →
    ValidFooter s (footerOf 1#1 0#1 1#1 b) b.p → SyncHeld s b →
      exec (.ftrEof b) s = .next (State.settled
        (if s.rxst = .idle then s.afterFooter b
          else if b.fd = 1#1 ∨ s.par.rxMaxFrame < s.rxbuf.length + (b.ebo.toNat + 1) then (s.afterFooter b).dropped
          else (s.afterFooter b).delivered (s.rxbuf ++ s.xin.take (b.ebo.toNat + 1)) s.rxts))

/-- Tier 2. FTR_SOF_EOF after a data or poll exchange. When the frame starts at or before its end byte, it is a whole frame: a
frame in progress is discarded and counted, and the new one is delivered at once, or dropped and counted with the frame-drop
flag, or ignored when zero-alignment makes it ineligible (43_data_framer.md R272). When it starts after the end byte, the frame
in progress ends as at FTR_EOF and then a new frame starts, unless zero-alignment is on (43_data_framer.md R273). Before it the
transmit side of a data exchange, after it the stall check and the end of the exchange (44_transfer_scheduler.md R318, R319). -/
def Obligations.StartAndEndInOneChunk : Prop :=
  ∀ (s : State) (b : FooterBits), s.FooterArrives (footerWord (footerOf 1#1 1#1 1#1 b) b.p) →
    ValidFooter s (footerOf 1#1 1#1 1#1 b) b.p → SyncHeld s b →
    (4 * b.swo.toNat ≤ b.ebo.toNat →
      exec (.ftrSofEof b) s = .next (State.settled
        (if b.fd = 1#1 then
            { (s.afterFooter b).dropIfAsm with cntRxDrop := (s.afterFooter b).dropIfAsm.cntRxDrop + 1#32 }
          else if s.cfgZa = true ∧ b.swo ≠ 0#4 then (s.afterFooter b).dropIfAsm
          else if s.par.rxMaxFrame < b.ebo.toNat + 1 - 4 * b.swo.toNat then (s.afterFooter b).dropIfAsm.dropped
          else (s.afterFooter b).dropIfAsm.delivered
            ((s.xin.drop (4 * b.swo.toNat)).take (b.ebo.toNat + 1 - 4 * b.swo.toNat)) (s.tsEn && b.rtsa == 1#1)))) ∧
      (b.ebo.toNat < 4 * b.swo.toNat →
        ∃ t, t = (if s.rxst = .idle then s.afterFooter b
            else if b.fd = 1#1 ∨ s.par.rxMaxFrame < s.rxbuf.length + (b.ebo.toNat + 1) then (s.afterFooter b).dropped
            else (s.afterFooter b).delivered (s.rxbuf ++ s.xin.take (b.ebo.toNat + 1)) s.rxts) ∧
          exec (.ftrSofEof b) s = .next (State.settled
            (if s.cfgZa = true then t
              else t.started ((s.xin.take s.cfgW).drop (4 * b.swo.toNat)) b.rtsa)))

/-- Tier 2. The link stall, after every footer row, valid or not, of a data or poll exchange: when transmit data still waits,
there is no credit and `STALL_POLL_MAX` zero-credit polls were issued, the engine enters `FAILED` with the cause `LINK_STALLED`
and answers every pending transaction with it, else it is idle. What still waits is the frame after its chunk was committed,
rejected or restarted, and the queue; the credit and the stall count are the footer's where it is valid, and unchanged where it
is not (41_credit_tracker.md R200, R202, R208, R209, R211, 43_data_framer.md R263 to R266, 44_transfer_scheduler.md R319,
R322). -/
def Obligations.ZeroCreditPollsStallTheLink : Prop :=
  ∀ (s : State) (i : Instr) (f : Footer) (p : Bit), footerRow i = some (f, p) → s.FooterArrives (footerWord f p) →
    s.phase = .exchanging → s.fatalCause = .none →
      ∃ u, exec i s = .next
          (if (u.txcur ≠ none ∨ u.txq ≠ []) ∧ u.txc = 0#5 ∧ s.par.stallPollMax ≤ u.stallPolls then
            u.failedWith .linkStalled else u) ∧
        u.phase = .idle ∧ u.fatalCause = .none ∧ u.slot = s.slot ∧ u.ctrlq = s.ctrlq ∧ u.txq = s.txq ∧ u.xkind = .none ∧
        (ValidFooter s f p →
          u.txc = f.txc ∧ u.stallPolls = (if f.txc = 0#5 then s.stallPolls else 0) ∧
            (s.syncSeen = true ∧ f.sync = 0#1 → u.txcur = s.txcur.map (fun c => ⟨c.frame, 0, 0⟩)) ∧
            (¬(s.syncSeen = true ∧ f.sync = 0#1) →
              u.txcur = if s.xkind = .data then (if f.hdrb = 1#1 then s.chunkRejected.txcur else s.chunkCommitted.txcur)
                else s.txcur)) ∧
        (¬ValidFooter s f p →
          u.txc = s.txc ∧ u.stallPolls = s.stallPolls ∧
            u.txcur = if s.xkind = .data then s.chunkCommitted.txcur else s.txcur)

/-- Tier 2. An exchange that completes while draining ends in `STOPPED`: its inbound bytes are processed as usual, then the
teardown runs and the SHUTDOWN caller is answered last (44_transfer_scheduler.md R318, R323, R324). For every inbound wire
word that completes. -/
def Obligations.DrainEndsStopped : Prop :=
  ∀ (s t : State) (i : Instr) (c : Caller), (i.port = .ctrlIn ∨ i.port = .dataIn) → s.phase = .draining →
    s.shutCaller = some c → RxClean s → exec i s = .next t →
      t.phase = .stopped ∧ t.shutCaller = none ∧ t.slot = none ∧ t.ctrlq = [] ∧ t.txq = [] ∧ t.txcur = none ∧
        t.rxst = .idle ∧ t.rxbuf = [] ∧ t.rxts = false ∧ t.irqPending = false ∧ t.freshWake = false ∧ t.stallPolls = 0 ∧
        t.xkind = .none ∧ t.xout = [] ∧ t.xlen = 0 ∧ t.history.getLast? = some (.resp c [0x02000000#32])

/-- Tier 2. A control exchange that completes while draining is processed as usual: a matching echo is answered `OK`, a read with
its data words, before the teardown answers the waiting transactions `SHUTDOWN` and releases the frames, and the SHUTDOWN
caller is answered last (44_transfer_scheduler.md R318, R320, R323, R324, 42_control_transactions.md R228, R235, R236). -/
def Obligations.MatchingEchoIsAnsweredBeforeTheTeardown : Prop :=
  ∀ (s : State) (t : Txn) (c : Caller) (dnc hdrb wnr aid : Bit) (mms : BitVec 4) (addr : BitVec 16) (len : BitVec 7)
    (p : Bit), s.phase = .draining → s.shutCaller = some c → s.slot = some t → t.Made s.par →
    t.hdr = dnc ++ hdrb ++ wnr ++ aid ++ mms ++ addr ++ len ++ p → s.EchoArrives t.hdr → t.hdr ≠ 0#32 →
      ∃ u, u = (s.received.over.answerSlot t .ok
          (if t.op = .rd then (List.range t.n).map (fun i => be32 ((s.xin.drop (8 + 4 * i)).take 4)) else [])).tornDown ∧
        exec (.ctrlEcho dnc hdrb wnr aid mms addr len p) s = .next
          { u with phase := .stopped, shutCaller := none, history := u.history ++ [.resp c [0x02000000#32]] }

/-- Tier 2. No busy spin: when a poll completes with a valid footer that reports no receive chunks, and nothing is pending
and no new wake came, the scheduler has no work. For every footer row. That is an inference the spec marks as its own ("No busy
spin", marked derived, after 44_transfer_scheduler.md R324). -/
def Obligations.IdleAfterOnePoll : Prop :=
  ∀ (s : State) (i : Instr) (f : Footer) (p : Bit), footerRow i = some (f, p) → s.FooterArrives (footerWord f p) →
    ValidFooter s f p → s.phase = .exchanging → s.xkind = .poll → s.fatalCause = .none → s.slot = none →
    txAvail s = false → s.irqPending = false → s.freshWake = false → f.rca = 0#5 →
      ∃ t, exec i s = .next t ∧ t.phase = .idle ∧ hasWork t = false

/-! ### Whole-machine rules -/

/-- Tier 1. The power-on state satisfies the invariant and has `phase = UNINIT` (10_state.md R50, R54,
70_reset_and_hazards.md R420; the values of the other elements are the model's choice, notes/assumptions/2.md). -/
def Obligations.ResetSatisfiesTheInvariant : Prop := State.reset.phase = .uninit ∧ State.reset.Inv

/-- Tier 3. Every step keeps the invariant, from every state that has it. Its clauses (1) to (6) are an inference the spec
marks as its own ("The rules keep these invariants", marked derived, 10_state.md R50); the others are what they need. -/
def Obligations.EveryStepKeepsTheInvariant : Prop :=
  ∀ s t : State, s.Inv → step s = .next t → t.Inv

/-- Tier 3. Before INIT no rule reads an unspecified element: what a step of an `UNINIT` engine does depends on the
parameters, the history and what the agents hold alone, and an INIT leaves nothing of the unspecified elements (10_state.md
R54, 70_reset_and_hazards.md R420, R421). -/
def Obligations.PowerOnValuesAreNeverRead : Prop :=
  ∀ s t : State, s.phase = .uninit → step s = .next t →
    (t.phase = .uninit ∧ step s.powerOnView = .next t.powerOnView) ∨
      (t.phase = .idle ∧ step s.powerOnView = .next t)

/-- Tier 2. The phases change only as 44_transfer_scheduler.md R310 lists. -/
def Obligations.PhaseChangesOnlyAsListed : Prop :=
  ∀ s t : State, step s = .next t → PhaseStep s.phase t.phase

/-- Tier 2. The output history is append-only, and no step changes a parameter (10_state.md R49, 00_scope.md R11). -/
def Obligations.HistoryOnlyGrows : Prop :=
  ∀ s t : State, step s = .next t → (∃ l, t.history = s.history ++ l) ∧ t.par = s.par

/-- Tier 2. Credit gate: a step puts a data chunk in flight only where the engine held a credit, and spends one for it; else
the credit changes only when a data or poll exchange ends, and INIT sets it to 0 (41_credit_tracker.md R200, R201, 10_state.md
R55). The gate is an inference the spec marks as its own ("Gate", marked derived, 41_credit_tracker.md R205). -/
def Obligations.DataChunkNeedsCredit : Prop :=
  ∀ s t : State, s.Inv → step s = .next t →
    (s.xkind ≠ .data ∧ t.xkind = .data ∧ 1 ≤ s.txc.toNat ∧ t.txc.toNat + 1 = s.txc.toNat) ∨
      ((t.xkind = .data → s.xkind = .data) ∧
        (t.txc = s.txc ∨ ((s.xkind = .data ∨ s.xkind = .poll) ∧ t.xkind = .none) ∨
          ((s.phase = .uninit ∨ s.phase = .stopped) ∧ t.phase = .idle ∧ t.txc = 0#5)))

/-- Tier 2. Serialization: while a control exchange is in flight, the transaction in the slot stays until the step that ends
the exchange, and a control exchange begins only for the transaction in the slot (20_memory.md R94; the spec's own inference
"Serialization", marked derived, 42_control_transactions.md R234). -/
def Obligations.OneControlTransactionAtATime : Prop :=
  ∀ s t : State, s.Inv → step s = .next t → t.xkind = .ctrl →
    t.slot = s.slot ∧ ∃ txn, s.slot = some txn ∧ t.xout = ctrlOut txn

/-- Tier 2. The bound on a transaction's exchanges: a control exchange that ends with its transaction still in the slot adds
one to the transaction's failures, and the failures of a transaction that is not answered stay below `PARITY_RETRY_MAX +
CTRL_TIMEOUT_ITERS`; no other step changes them (42_control_transactions.md R230, R231; the spec's own inference "Bound", marked
derived, R232). That the transaction is still the slot's is said by the waiting line, which an answer shortens. -/
def Obligations.TransactionIsAnsweredWithinTheBound : Prop :=
  ∀ (s t : State) (a b : Txn), s.Inv → step s = .next t → s.xkind = .ctrl → s.slot = some a → t.slot = some b →
    b.pfail + b.nrep < s.par.parityRetryMax + s.par.ctrlTimeoutIters ∧
      (t.xkind = .ctrl → b = a) ∧
      (t.xkind = .none → t.ctrlq = s.ctrlq →
        b = { a with pfail := a.pfail + 1 } ∨ b = { a with nrep := a.nrep + 1 }) ∧
      (t.xkind = .none → t.ctrlq ≠ s.ctrlq → s.ctrlq = b :: t.ctrlq ∧ b.pfail = 0 ∧ b.nrep = 0)

/-- Tier 3. Every command of every caller is answered exactly once: each step keeps, for each caller, the number of its
answers in the history plus the number of its commands that are still open (20_memory.md R93, 42_control_transactions.md
R228 to R231, 44_transfer_scheduler.md R322 to R324, 30_encoding.md R155). -/
def Obligations.EveryCommandIsAnsweredOnce : Prop :=
  ∀ (s t : State) (c : Caller), s.Inv → step s = .next t →
    answersTo c t.history + openCommands c t = answersTo c s.history + openCommands c s

/-- Tier 3. No transmit frame is lost, repeated or reordered: the frames released so far, followed by those the engine holds,
stay one and the same list, which only an accepted TX_ENQUEUE extends, by one frame at its end (20_memory.md R95,
43_data_framer.md R260, R261, R263, R264, 44_transfer_scheduler.md R323). -/
def Obligations.TransmitFramesAreKeptInOrder : Prop :=
  ∀ s t : State, s.Inv → s.phase ≠ .uninit → step s = .next t →
    releasedFrames t.history ++ heldFrames t = releasedFrames s.history ++ heldFrames s ∨
      ∃ f, releasedFrames t.history ++ heldFrames t = releasedFrames s.history ++ heldFrames s ++ [f] ∧
        t.history = s.history ++ [.resp t.portCaller [0x20000000#32]]

/-- Tier 3. Receive order: a frame enters the queue of delivered frames at its end, in the step that announces it; only
RX_POLL takes one, the oldest, and answers it; only INIT empties the queue (20_memory.md R96, 43_data_framer.md R278,
R283; for a frame of more than 65535 bytes word 2 of the answer is the model's choice, notes/assumptions/20.md). -/
def Obligations.ReceiveOrderIsKept : Prop :=
  ∀ s t : State, s.Inv → step s = .next t →
    (∃ l, indicatedFrames t.history = indicatedFrames s.history ++ l ∧ t.rxq = s.rxq ++ l ∧ l.length ≤ 1) ∨
      (∃ f, s.rxq = f :: t.rxq ∧ t.history = s.history ++ [.resp t.portCaller (0x21000000#32 :: rxPollWords f)]) ∨
      (t.rxq = [] ∧ t.phase = .idle ∧ (s.phase = .uninit ∨ s.phase = .stopped))
end

