-- ==== Sys2Proof/Laws/Codec.lean ====
section
/-! SUPPORT. What the byte order, the field layouts and the parity bit do, said once: the inverses of `BE32`, the fields of a
word that was laid out from fields, and the parity of a word that was given its parity bit. -/

namespace Sys2Proof.Machine

@[simp] theorem toBE32_length (w : Word32) : (toBE32 w).length = 4 := rfl

@[simp] theorem zeros_length (n : Nat) : (zeros n).length = n := List.length_replicate

theorem memRead_length (b : List Byte) (off n : Nat) : (memRead b off n).length = min n (b.length - off) := by
  simp [memRead]

@[simp] theorem be32_toBE32 (w : Word32) : be32 (toBE32 w) = w := by
  simp (disch := decide) only [toBE32, be32, BitVec.extractLsb'_append_extractLsb'_eq_extractLsb']
  exact BitVec.extractLsb'_eq_self

theorem toBE32_be32 {b : List Byte} (h : b.length = 4) : toBE32 (be32 b) = b := by
  match b, h with
  | [x, y, z, w], _ =>
    have low : (be32 [x, y, z, w]).extractLsb' 0 8 = w :=
      (BitVec.extractLsb'_append_eq_of_add_le (by decide)).trans BitVec.extractLsb'_eq_self
    have high : ∀ s, 8 ≤ s → (be32 [x, y, z, w]).extractLsb' s 8 = (x ++ y ++ z).extractLsb' (s - 8) 8 :=
      fun s hs => BitVec.extractLsb'_append_eq_of_le hs
    simp (disch := decide) only [toBE32, low, high, BitVec.extractLsb'_append_eq_of_add_le,
      BitVec.extractLsb'_append_eq_of_le, Nat.reduceSub, BitVec.extractLsb'_eq_self]

theorem toBE32_injective {v w : Word32} (h : toBE32 v = toBE32 w) : v = w := by
  rw [← be32_toBE32 v, h, be32_toBE32]

/-- The fields of a footer laid out from fields are those fields. -/
@[simp] theorem footerFields_footerWord (f : Footer) (p : Bit) : footerFields (footerWord f p) = f := by
  have high : ∀ s l, 1 ≤ s → (footerWord f p).extractLsb' s l =
      (f.exst ++ f.hdrb ++ f.sync ++ f.rca ++ f.vs ++ f.dv ++ f.sv ++ f.swo ++ f.fd ++ f.ev ++ f.ebo ++ f.rtsa ++
        f.rtsp ++ f.txc).extractLsb' (s - 1) l := fun s l hs => BitVec.extractLsb'_append_eq_of_le hs
  simp (disch := decide) only [footerFields, high, BitVec.extractLsb'_append_eq_of_add_le,
    BitVec.extractLsb'_append_eq_of_le, Nat.reduceSub, BitVec.extractLsb'_eq_self]

@[simp] theorem footerWord_parity (f : Footer) (p : Bit) : (footerWord f p).extractLsb' 0 1 = p :=
  (BitVec.extractLsb'_append_eq_of_add_le (by decide)).trans BitVec.extractLsb'_eq_self

/-- A footer word is laid out from its fields and its parity bit. -/
theorem footerWord_footerFields (w : Word32) : footerWord (footerFields w) (w.extractLsb' 0 1) = w := by
  simp (disch := decide) only [footerFields, footerWord, BitVec.extractLsb'_append_extractLsb'_eq_extractLsb']
  exact BitVec.extractLsb'_eq_self

/-- The fields of a control word laid out from fields are those fields. -/
@[simp] theorem echoFields_ctrlWord (dnc hdrb wnr aid : Bit) (mms : BitVec 4) (addr : BitVec 16) (len : BitVec 7) (p : Bit) :
    echoFields (ctrlWord dnc hdrb wnr aid mms addr len p) =
      { dnc := dnc, hdrb := hdrb, wnr := wnr, aid := aid, mms := mms, addr := addr, len := len } := by
  have high : ∀ s l, 1 ≤ s → (ctrlWord dnc hdrb wnr aid mms addr len p).extractLsb' s l =
      (dnc ++ hdrb ++ wnr ++ aid ++ mms ++ addr ++ len).extractLsb' (s - 1) l :=
    fun s l hs => BitVec.extractLsb'_append_eq_of_le hs
  simp (disch := decide) only [echoFields, high, BitVec.extractLsb'_append_eq_of_add_le,
    BitVec.extractLsb'_append_eq_of_le, Nat.reduceSub, BitVec.extractLsb'_eq_self]

@[simp] theorem ctrlWord_parity (dnc hdrb wnr aid : Bit) (mms : BitVec 4) (addr : BitVec 16) (len : BitVec 7) (p : Bit) :
    (ctrlWord dnc hdrb wnr aid mms addr len p).extractLsb' 0 1 = p :=
  (BitVec.extractLsb'_append_eq_of_add_le (by decide)).trans BitVec.extractLsb'_eq_self

/-- A control word is laid out from its fields and its parity bit. -/
theorem ctrlWord_echoFields (w : Word32) :
    ctrlWord (w.extractLsb' 31 1) (w.extractLsb' 30 1) (w.extractLsb' 29 1) (w.extractLsb' 28 1) (w.extractLsb' 24 4)
      (w.extractLsb' 8 16) (w.extractLsb' 1 7) (w.extractLsb' 0 1) = w := by
  simp (disch := decide) only [ctrlWord, BitVec.extractLsb'_append_extractLsb'_eq_extractLsb']
  exact BitVec.extractLsb'_eq_self

/-- Bit 0 is not counted, so setting the parity bit keeps the count. -/
@[simp] theorem onesAboveParity_or (w : Word32) (b : Bit) : onesAboveParity (w ||| b.setWidth 32) = onesAboveParity w := by
  unfold onesAboveParity
  refine List.countP_congr fun i hi => ?_
  have : i < 31 := List.mem_range.mp hi
  simp [BitVec.getLsbD_or, BitVec.getLsbD_setWidth]

@[simp] theorem parityBit_or (sense : ParitySense) (w : Word32) (b : Bit) :
    parityBit sense (w ||| b.setWidth 32) = parityBit sense w := by
  simp [parityBit]

/-- A word that was given its parity bit has consistent parity (40_wire_codec.md R177). -/
theorem parityOk_withParity (sense : ParitySense) {h0 : Word32} (h : h0.extractLsb' 0 1 = 0#1) :
    parityOk sense (withParity sense h0) = true := by
  simp only [parityOk, withParity, parityBit_or, BitVec.extractLsb'_or, h, BitVec.zero_or, beq_iff_eq]
  apply BitVec.eq_of_getLsbD_eq
  intro i hi
  have hi32 : i < 32 := by omega
  simp [hi, hi32]

/-- The parity bit leaves the bits above bit 0 as they are. -/
theorem extractLsb'_withParity (sense : ParitySense) (h0 : Word32) {start len : Nat} (hs : 1 ≤ start) :
    (withParity sense h0).extractLsb' start len = h0.extractLsb' start len := by
  apply BitVec.eq_of_getLsbD_eq
  intro i hi
  have above : (parityBit sense h0).getLsbD (start + i) = false := BitVec.getLsbD_of_ge _ _ (by omega)
  simp [withParity, BitVec.getLsbD_or, BitVec.getLsbD_extractLsb', BitVec.getLsbD_setWidth, above]

/-- Exactly one of the two values of bit 0 is consistent: two words with the same other bits and consistent parity are
equal. -/
theorem eq_of_parityOk {sense : ParitySense} {v w : Word32} (hv : parityOk sense v = true) (hw : parityOk sense w = true)
    (h : v.extractLsb' 1 31 = w.extractLsb' 1 31) : v = w := by
  have hbit : ∀ i, i < 31 → v.getLsbD (i + 1) = w.getLsbD (i + 1) := by
    intro i hi
    have := congrArg (fun x => x.getLsbD i) h
    simpa [BitVec.getLsbD_extractLsb', hi, Nat.add_comm] using this
  have hcount : onesAboveParity v = onesAboveParity w :=
    List.countP_congr fun i hi => by rw [hbit i (List.mem_range.mp hi)]
  have h0 : v.extractLsb' 0 1 = w.extractLsb' 0 1 := by
    simp only [parityOk, beq_iff_eq] at hv hw
    rw [hv, hw]; cases sense <;> simp [parityBit, hcount]
  apply BitVec.eq_of_getLsbD_eq
  intro i hi
  rcases i with _ | i
  · have := congrArg (fun x => x.getLsbD 0) h0
    simpa [BitVec.getLsbD_extractLsb'] using this
  · exact hbit i (by omega)

/-- What the footer decoder answers for the four bytes of a word (40_wire_codec.md R175). -/
@[simp] theorem decodeFooter_toBE32 (sense : ParitySense) (width : Nat) (w : Word32) :
    decodeFooter sense width (toBE32 w) =
      if parityOk sense w = false then .parity
      else if (footerFields w).malformed width then .malformed
      else .valid (footerFields w) := by
  simp [decodeFooter]

/-- What the echo decoder answers for the four bytes of a word (40_wire_codec.md R176). -/
@[simp] theorem decodeEcho_toBE32 (sense : ParitySense) (w : Word32) :
    decodeEcho sense (toBE32 w) = if parityOk sense w = false then .echoParity else .echo (echoFields w) := by
  simp [decodeEcho]

end Sys2Proof.Machine
end

