-- ==== Sys2Proof/Laws/State.lean ====
section
/-! SUPPORT. One lemma per field for each update of the state that writes the same fields in every state, so that no later
proof unfolds a record update. -/

namespace Sys2Proof.Machine

/-! `emit` -/
@[simp] theorem emit_par (s : State) (e : Indication) : (s.emit e).par = s.par := rfl
@[simp] theorem emit_cfgWcode (s : State) (e : Indication) : (s.emit e).cfgWcode = s.cfgWcode := rfl
@[simp] theorem emit_cfgW (s : State) (e : Indication) : (s.emit e).cfgW = s.cfgW := rfl
@[simp] theorem emit_cfgZa (s : State) (e : Indication) : (s.emit e).cfgZa = s.cfgZa := rfl
@[simp] theorem emit_cfgTscap (s : State) (e : Indication) : (s.emit e).cfgTscap = s.cfgTscap := rfl
@[simp] theorem emit_phase (s : State) (e : Indication) : (s.emit e).phase = s.phase := rfl
@[simp] theorem emit_xkind (s : State) (e : Indication) : (s.emit e).xkind = s.xkind := rfl
@[simp] theorem emit_xout (s : State) (e : Indication) : (s.emit e).xout = s.xout := rfl
@[simp] theorem emit_xlen (s : State) (e : Indication) : (s.emit e).xlen = s.xlen := rfl
@[simp] theorem emit_irqPending (s : State) (e : Indication) : (s.emit e).irqPending = s.irqPending := rfl
@[simp] theorem emit_freshWake (s : State) (e : Indication) : (s.emit e).freshWake = s.freshWake := rfl
@[simp] theorem emit_stallPolls (s : State) (e : Indication) : (s.emit e).stallPolls = s.stallPolls := rfl
@[simp] theorem emit_fatalCause (s : State) (e : Indication) : (s.emit e).fatalCause = s.fatalCause := rfl
@[simp] theorem emit_txc (s : State) (e : Indication) : (s.emit e).txc = s.txc := rfl
@[simp] theorem emit_rca (s : State) (e : Indication) : (s.emit e).rca = s.rca := rfl
@[simp] theorem emit_syncSeen (s : State) (e : Indication) : (s.emit e).syncSeen = s.syncSeen := rfl
@[simp] theorem emit_slot (s : State) (e : Indication) : (s.emit e).slot = s.slot := rfl
@[simp] theorem emit_ctrlq (s : State) (e : Indication) : (s.emit e).ctrlq = s.ctrlq := rfl
@[simp] theorem emit_txq (s : State) (e : Indication) : (s.emit e).txq = s.txq := rfl
@[simp] theorem emit_txcur (s : State) (e : Indication) : (s.emit e).txcur = s.txcur := rfl
@[simp] theorem emit_rxst (s : State) (e : Indication) : (s.emit e).rxst = s.rxst := rfl
@[simp] theorem emit_rxbuf (s : State) (e : Indication) : (s.emit e).rxbuf = s.rxbuf := rfl
@[simp] theorem emit_rxts (s : State) (e : Indication) : (s.emit e).rxts = s.rxts := rfl
@[simp] theorem emit_rxq (s : State) (e : Indication) : (s.emit e).rxq = s.rxq := rfl
@[simp] theorem emit_stUnsync (s : State) (e : Indication) : (s.emit e).stUnsync = s.stUnsync := rfl
@[simp] theorem emit_stExst (s : State) (e : Indication) : (s.emit e).stExst = s.stExst := rfl
@[simp] theorem emit_stHdrb (s : State) (e : Indication) : (s.emit e).stHdrb = s.stHdrb := rfl
@[simp] theorem emit_stUnreach (s : State) (e : Indication) : (s.emit e).stUnreach = s.stUnreach := rfl
@[simp] theorem emit_stFtrerr (s : State) (e : Indication) : (s.emit e).stFtrerr = s.stFtrerr := rfl
@[simp] theorem emit_tsEn (s : State) (e : Indication) : (s.emit e).tsEn = s.tsEn := rfl
@[simp] theorem emit_cntRxDrop (s : State) (e : Indication) : (s.emit e).cntRxDrop = s.cntRxDrop := rfl
@[simp] theorem emit_cntRxOvf (s : State) (e : Indication) : (s.emit e).cntRxOvf = s.cntRxOvf := rfl
@[simp] theorem emit_cntFtrErr (s : State) (e : Indication) : (s.emit e).cntFtrErr = s.cntFtrErr := rfl
@[simp] theorem emit_cntTxAbort (s : State) (e : Indication) : (s.emit e).cntTxAbort = s.cntTxAbort := rfl
@[simp] theorem emit_shutCaller (s : State) (e : Indication) : (s.emit e).shutCaller = s.shutCaller := rfl
@[simp] theorem emit_history (s : State) (e : Indication) : (s.emit e).history = s.history ++ [e] := rfl
@[simp] theorem emit_inputs (s : State) (e : Indication) : (s.emit e).inputs = s.inputs := rfl
@[simp] theorem emit_held (s : State) (e : Indication) : (s.emit e).held = s.held := rfl
@[simp] theorem emit_portCaller (s : State) (e : Indication) : (s.emit e).portCaller = s.portCaller := rfl
@[simp] theorem emit_xin (s : State) (e : Indication) : (s.emit e).xin = s.xin := rfl

/-! `respond` -/
@[simp] theorem respond_par (s : State) (c : Caller) (opc : BitVec 8) (code : Status) (data : List Word32) :
    (s.respond c opc code data).par = s.par := rfl
@[simp] theorem respond_cfgWcode (s : State) (c : Caller) (opc : BitVec 8) (code : Status) (data : List Word32) :
    (s.respond c opc code data).cfgWcode = s.cfgWcode := rfl
@[simp] theorem respond_cfgW (s : State) (c : Caller) (opc : BitVec 8) (code : Status) (data : List Word32) :
    (s.respond c opc code data).cfgW = s.cfgW := rfl
@[simp] theorem respond_cfgZa (s : State) (c : Caller) (opc : BitVec 8) (code : Status) (data : List Word32) :
    (s.respond c opc code data).cfgZa = s.cfgZa := rfl
@[simp] theorem respond_cfgTscap (s : State) (c : Caller) (opc : BitVec 8) (code : Status) (data : List Word32) :
    (s.respond c opc code data).cfgTscap = s.cfgTscap := rfl
@[simp] theorem respond_phase (s : State) (c : Caller) (opc : BitVec 8) (code : Status) (data : List Word32) :
    (s.respond c opc code data).phase = s.phase := rfl
@[simp] theorem respond_xkind (s : State) (c : Caller) (opc : BitVec 8) (code : Status) (data : List Word32) :
    (s.respond c opc code data).xkind = s.xkind := rfl
@[simp] theorem respond_xout (s : State) (c : Caller) (opc : BitVec 8) (code : Status) (data : List Word32) :
    (s.respond c opc code data).xout = s.xout := rfl
@[simp] theorem respond_xlen (s : State) (c : Caller) (opc : BitVec 8) (code : Status) (data : List Word32) :
    (s.respond c opc code data).xlen = s.xlen := rfl
@[simp] theorem respond_irqPending (s : State) (c : Caller) (opc : BitVec 8) (code : Status) (data : List Word32) :
    (s.respond c opc code data).irqPending = s.irqPending := rfl
@[simp] theorem respond_freshWake (s : State) (c : Caller) (opc : BitVec 8) (code : Status) (data : List Word32) :
    (s.respond c opc code data).freshWake = s.freshWake := rfl
@[simp] theorem respond_stallPolls (s : State) (c : Caller) (opc : BitVec 8) (code : Status) (data : List Word32) :
    (s.respond c opc code data).stallPolls = s.stallPolls := rfl
@[simp] theorem respond_fatalCause (s : State) (c : Caller) (opc : BitVec 8) (code : Status) (data : List Word32) :
    (s.respond c opc code data).fatalCause = s.fatalCause := rfl
@[simp] theorem respond_txc (s : State) (c : Caller) (opc : BitVec 8) (code : Status) (data : List Word32) :
    (s.respond c opc code data).txc = s.txc := rfl
@[simp] theorem respond_rca (s : State) (c : Caller) (opc : BitVec 8) (code : Status) (data : List Word32) :
    (s.respond c opc code data).rca = s.rca := rfl
@[simp] theorem respond_syncSeen (s : State) (c : Caller) (opc : BitVec 8) (code : Status) (data : List Word32) :
    (s.respond c opc code data).syncSeen = s.syncSeen := rfl
@[simp] theorem respond_slot (s : State) (c : Caller) (opc : BitVec 8) (code : Status) (data : List Word32) :
    (s.respond c opc code data).slot = s.slot := rfl
@[simp] theorem respond_ctrlq (s : State) (c : Caller) (opc : BitVec 8) (code : Status) (data : List Word32) :
    (s.respond c opc code data).ctrlq = s.ctrlq := rfl
@[simp] theorem respond_txq (s : State) (c : Caller) (opc : BitVec 8) (code : Status) (data : List Word32) :
    (s.respond c opc code data).txq = s.txq := rfl
@[simp] theorem respond_txcur (s : State) (c : Caller) (opc : BitVec 8) (code : Status) (data : List Word32) :
    (s.respond c opc code data).txcur = s.txcur := rfl
@[simp] theorem respond_rxst (s : State) (c : Caller) (opc : BitVec 8) (code : Status) (data : List Word32) :
    (s.respond c opc code data).rxst = s.rxst := rfl
@[simp] theorem respond_rxbuf (s : State) (c : Caller) (opc : BitVec 8) (code : Status) (data : List Word32) :
    (s.respond c opc code data).rxbuf = s.rxbuf := rfl
@[simp] theorem respond_rxts (s : State) (c : Caller) (opc : BitVec 8) (code : Status) (data : List Word32) :
    (s.respond c opc code data).rxts = s.rxts := rfl
@[simp] theorem respond_rxq (s : State) (c : Caller) (opc : BitVec 8) (code : Status) (data : List Word32) :
    (s.respond c opc code data).rxq = s.rxq := rfl
@[simp] theorem respond_stUnsync (s : State) (c : Caller) (opc : BitVec 8) (code : Status) (data : List Word32) :
    (s.respond c opc code data).stUnsync = s.stUnsync := rfl
@[simp] theorem respond_stExst (s : State) (c : Caller) (opc : BitVec 8) (code : Status) (data : List Word32) :
    (s.respond c opc code data).stExst = s.stExst := rfl
@[simp] theorem respond_stHdrb (s : State) (c : Caller) (opc : BitVec 8) (code : Status) (data : List Word32) :
    (s.respond c opc code data).stHdrb = s.stHdrb := rfl
@[simp] theorem respond_stUnreach (s : State) (c : Caller) (opc : BitVec 8) (code : Status) (data : List Word32) :
    (s.respond c opc code data).stUnreach = s.stUnreach := rfl
@[simp] theorem respond_stFtrerr (s : State) (c : Caller) (opc : BitVec 8) (code : Status) (data : List Word32) :
    (s.respond c opc code data).stFtrerr = s.stFtrerr := rfl
@[simp] theorem respond_tsEn (s : State) (c : Caller) (opc : BitVec 8) (code : Status) (data : List Word32) :
    (s.respond c opc code data).tsEn = s.tsEn := rfl
@[simp] theorem respond_cntRxDrop (s : State) (c : Caller) (opc : BitVec 8) (code : Status) (data : List Word32) :
    (s.respond c opc code data).cntRxDrop = s.cntRxDrop := rfl
@[simp] theorem respond_cntRxOvf (s : State) (c : Caller) (opc : BitVec 8) (code : Status) (data : List Word32) :
    (s.respond c opc code data).cntRxOvf = s.cntRxOvf := rfl
@[simp] theorem respond_cntFtrErr (s : State) (c : Caller) (opc : BitVec 8) (code : Status) (data : List Word32) :
    (s.respond c opc code data).cntFtrErr = s.cntFtrErr := rfl
@[simp] theorem respond_cntTxAbort (s : State) (c : Caller) (opc : BitVec 8) (code : Status) (data : List Word32) :
    (s.respond c opc code data).cntTxAbort = s.cntTxAbort := rfl
@[simp] theorem respond_shutCaller (s : State) (c : Caller) (opc : BitVec 8) (code : Status) (data : List Word32) :
    (s.respond c opc code data).shutCaller = s.shutCaller := rfl
@[simp] theorem respond_history (s : State) (c : Caller) (opc : BitVec 8) (code : Status) (data : List Word32) :
    (s.respond c opc code data).history = s.history ++ [respondInd c opc code data] := rfl
@[simp] theorem respond_inputs (s : State) (c : Caller) (opc : BitVec 8) (code : Status) (data : List Word32) :
    (s.respond c opc code data).inputs = s.inputs := rfl
@[simp] theorem respond_held (s : State) (c : Caller) (opc : BitVec 8) (code : Status) (data : List Word32) :
    (s.respond c opc code data).held = s.held := rfl
@[simp] theorem respond_portCaller (s : State) (c : Caller) (opc : BitVec 8) (code : Status) (data : List Word32) :
    (s.respond c opc code data).portCaller = s.portCaller := rfl
@[simp] theorem respond_xin (s : State) (c : Caller) (opc : BitVec 8) (code : Status) (data : List Word32) :
    (s.respond c opc code data).xin = s.xin := rfl

/-! `answer` -/
@[simp] theorem answer_par (s : State) (opc : BitVec 8) (code : Status) (data : List Word32) :
    (s.answer opc code data).par = s.par := rfl
@[simp] theorem answer_cfgWcode (s : State) (opc : BitVec 8) (code : Status) (data : List Word32) :
    (s.answer opc code data).cfgWcode = s.cfgWcode := rfl
@[simp] theorem answer_cfgW (s : State) (opc : BitVec 8) (code : Status) (data : List Word32) :
    (s.answer opc code data).cfgW = s.cfgW := rfl
@[simp] theorem answer_cfgZa (s : State) (opc : BitVec 8) (code : Status) (data : List Word32) :
    (s.answer opc code data).cfgZa = s.cfgZa := rfl
@[simp] theorem answer_cfgTscap (s : State) (opc : BitVec 8) (code : Status) (data : List Word32) :
    (s.answer opc code data).cfgTscap = s.cfgTscap := rfl
@[simp] theorem answer_phase (s : State) (opc : BitVec 8) (code : Status) (data : List Word32) :
    (s.answer opc code data).phase = s.phase := rfl
@[simp] theorem answer_xkind (s : State) (opc : BitVec 8) (code : Status) (data : List Word32) :
    (s.answer opc code data).xkind = s.xkind := rfl
@[simp] theorem answer_xout (s : State) (opc : BitVec 8) (code : Status) (data : List Word32) :
    (s.answer opc code data).xout = s.xout := rfl
@[simp] theorem answer_xlen (s : State) (opc : BitVec 8) (code : Status) (data : List Word32) :
    (s.answer opc code data).xlen = s.xlen := rfl
@[simp] theorem answer_irqPending (s : State) (opc : BitVec 8) (code : Status) (data : List Word32) :
    (s.answer opc code data).irqPending = s.irqPending := rfl
@[simp] theorem answer_freshWake (s : State) (opc : BitVec 8) (code : Status) (data : List Word32) :
    (s.answer opc code data).freshWake = s.freshWake := rfl
@[simp] theorem answer_stallPolls (s : State) (opc : BitVec 8) (code : Status) (data : List Word32) :
    (s.answer opc code data).stallPolls = s.stallPolls := rfl
@[simp] theorem answer_fatalCause (s : State) (opc : BitVec 8) (code : Status) (data : List Word32) :
    (s.answer opc code data).fatalCause = s.fatalCause := rfl
@[simp] theorem answer_txc (s : State) (opc : BitVec 8) (code : Status) (data : List Word32) :
    (s.answer opc code data).txc = s.txc := rfl
@[simp] theorem answer_rca (s : State) (opc : BitVec 8) (code : Status) (data : List Word32) :
    (s.answer opc code data).rca = s.rca := rfl
@[simp] theorem answer_syncSeen (s : State) (opc : BitVec 8) (code : Status) (data : List Word32) :
    (s.answer opc code data).syncSeen = s.syncSeen := rfl
@[simp] theorem answer_slot (s : State) (opc : BitVec 8) (code : Status) (data : List Word32) :
    (s.answer opc code data).slot = s.slot := rfl
@[simp] theorem answer_ctrlq (s : State) (opc : BitVec 8) (code : Status) (data : List Word32) :
    (s.answer opc code data).ctrlq = s.ctrlq := rfl
@[simp] theorem answer_txq (s : State) (opc : BitVec 8) (code : Status) (data : List Word32) :
    (s.answer opc code data).txq = s.txq := rfl
@[simp] theorem answer_txcur (s : State) (opc : BitVec 8) (code : Status) (data : List Word32) :
    (s.answer opc code data).txcur = s.txcur := rfl
@[simp] theorem answer_rxst (s : State) (opc : BitVec 8) (code : Status) (data : List Word32) :
    (s.answer opc code data).rxst = s.rxst := rfl
@[simp] theorem answer_rxbuf (s : State) (opc : BitVec 8) (code : Status) (data : List Word32) :
    (s.answer opc code data).rxbuf = s.rxbuf := rfl
@[simp] theorem answer_rxts (s : State) (opc : BitVec 8) (code : Status) (data : List Word32) :
    (s.answer opc code data).rxts = s.rxts := rfl
@[simp] theorem answer_rxq (s : State) (opc : BitVec 8) (code : Status) (data : List Word32) :
    (s.answer opc code data).rxq = s.rxq := rfl
@[simp] theorem answer_stUnsync (s : State) (opc : BitVec 8) (code : Status) (data : List Word32) :
    (s.answer opc code data).stUnsync = s.stUnsync := rfl
@[simp] theorem answer_stExst (s : State) (opc : BitVec 8) (code : Status) (data : List Word32) :
    (s.answer opc code data).stExst = s.stExst := rfl
@[simp] theorem answer_stHdrb (s : State) (opc : BitVec 8) (code : Status) (data : List Word32) :
    (s.answer opc code data).stHdrb = s.stHdrb := rfl
@[simp] theorem answer_stUnreach (s : State) (opc : BitVec 8) (code : Status) (data : List Word32) :
    (s.answer opc code data).stUnreach = s.stUnreach := rfl
@[simp] theorem answer_stFtrerr (s : State) (opc : BitVec 8) (code : Status) (data : List Word32) :
    (s.answer opc code data).stFtrerr = s.stFtrerr := rfl
@[simp] theorem answer_tsEn (s : State) (opc : BitVec 8) (code : Status) (data : List Word32) :
    (s.answer opc code data).tsEn = s.tsEn := rfl
@[simp] theorem answer_cntRxDrop (s : State) (opc : BitVec 8) (code : Status) (data : List Word32) :
    (s.answer opc code data).cntRxDrop = s.cntRxDrop := rfl
@[simp] theorem answer_cntRxOvf (s : State) (opc : BitVec 8) (code : Status) (data : List Word32) :
    (s.answer opc code data).cntRxOvf = s.cntRxOvf := rfl
@[simp] theorem answer_cntFtrErr (s : State) (opc : BitVec 8) (code : Status) (data : List Word32) :
    (s.answer opc code data).cntFtrErr = s.cntFtrErr := rfl
@[simp] theorem answer_cntTxAbort (s : State) (opc : BitVec 8) (code : Status) (data : List Word32) :
    (s.answer opc code data).cntTxAbort = s.cntTxAbort := rfl
@[simp] theorem answer_shutCaller (s : State) (opc : BitVec 8) (code : Status) (data : List Word32) :
    (s.answer opc code data).shutCaller = s.shutCaller := rfl
@[simp] theorem answer_history (s : State) (opc : BitVec 8) (code : Status) (data : List Word32) :
    (s.answer opc code data).history = s.history ++ [respondInd s.portCaller opc code data] := rfl
@[simp] theorem answer_inputs (s : State) (opc : BitVec 8) (code : Status) (data : List Word32) :
    (s.answer opc code data).inputs = s.inputs := rfl
@[simp] theorem answer_held (s : State) (opc : BitVec 8) (code : Status) (data : List Word32) :
    (s.answer opc code data).held = s.held := rfl
@[simp] theorem answer_portCaller (s : State) (opc : BitVec 8) (code : Status) (data : List Word32) :
    (s.answer opc code data).portCaller = s.portCaller := rfl
@[simp] theorem answer_xin (s : State) (opc : BitVec 8) (code : Status) (data : List Word32) :
    (s.answer opc code data).xin = s.xin := rfl

/-! `clearExchange` -/
@[simp] theorem clearExchange_par (s : State) : (clearExchange s).par = s.par := rfl
@[simp] theorem clearExchange_cfgWcode (s : State) : (clearExchange s).cfgWcode = s.cfgWcode := rfl
@[simp] theorem clearExchange_cfgW (s : State) : (clearExchange s).cfgW = s.cfgW := rfl
@[simp] theorem clearExchange_cfgZa (s : State) : (clearExchange s).cfgZa = s.cfgZa := rfl
@[simp] theorem clearExchange_cfgTscap (s : State) : (clearExchange s).cfgTscap = s.cfgTscap := rfl
@[simp] theorem clearExchange_phase (s : State) : (clearExchange s).phase = s.phase := rfl
@[simp] theorem clearExchange_xkind (s : State) : (clearExchange s).xkind = .none := rfl
@[simp] theorem clearExchange_xout (s : State) : (clearExchange s).xout = [] := rfl
@[simp] theorem clearExchange_xlen (s : State) : (clearExchange s).xlen = 0 := rfl
@[simp] theorem clearExchange_irqPending (s : State) : (clearExchange s).irqPending = s.irqPending := rfl
@[simp] theorem clearExchange_freshWake (s : State) : (clearExchange s).freshWake = s.freshWake := rfl
@[simp] theorem clearExchange_stallPolls (s : State) : (clearExchange s).stallPolls = s.stallPolls := rfl
@[simp] theorem clearExchange_fatalCause (s : State) : (clearExchange s).fatalCause = s.fatalCause := rfl
@[simp] theorem clearExchange_txc (s : State) : (clearExchange s).txc = s.txc := rfl
@[simp] theorem clearExchange_rca (s : State) : (clearExchange s).rca = s.rca := rfl
@[simp] theorem clearExchange_syncSeen (s : State) : (clearExchange s).syncSeen = s.syncSeen := rfl
@[simp] theorem clearExchange_slot (s : State) : (clearExchange s).slot = s.slot := rfl
@[simp] theorem clearExchange_ctrlq (s : State) : (clearExchange s).ctrlq = s.ctrlq := rfl
@[simp] theorem clearExchange_txq (s : State) : (clearExchange s).txq = s.txq := rfl
@[simp] theorem clearExchange_txcur (s : State) : (clearExchange s).txcur = s.txcur := rfl
@[simp] theorem clearExchange_rxst (s : State) : (clearExchange s).rxst = s.rxst := rfl
@[simp] theorem clearExchange_rxbuf (s : State) : (clearExchange s).rxbuf = s.rxbuf := rfl
@[simp] theorem clearExchange_rxts (s : State) : (clearExchange s).rxts = s.rxts := rfl
@[simp] theorem clearExchange_rxq (s : State) : (clearExchange s).rxq = s.rxq := rfl
@[simp] theorem clearExchange_stUnsync (s : State) : (clearExchange s).stUnsync = s.stUnsync := rfl
@[simp] theorem clearExchange_stExst (s : State) : (clearExchange s).stExst = s.stExst := rfl
@[simp] theorem clearExchange_stHdrb (s : State) : (clearExchange s).stHdrb = s.stHdrb := rfl
@[simp] theorem clearExchange_stUnreach (s : State) : (clearExchange s).stUnreach = s.stUnreach := rfl
@[simp] theorem clearExchange_stFtrerr (s : State) : (clearExchange s).stFtrerr = s.stFtrerr := rfl
@[simp] theorem clearExchange_tsEn (s : State) : (clearExchange s).tsEn = s.tsEn := rfl
@[simp] theorem clearExchange_cntRxDrop (s : State) : (clearExchange s).cntRxDrop = s.cntRxDrop := rfl
@[simp] theorem clearExchange_cntRxOvf (s : State) : (clearExchange s).cntRxOvf = s.cntRxOvf := rfl
@[simp] theorem clearExchange_cntFtrErr (s : State) : (clearExchange s).cntFtrErr = s.cntFtrErr := rfl
@[simp] theorem clearExchange_cntTxAbort (s : State) : (clearExchange s).cntTxAbort = s.cntTxAbort := rfl
@[simp] theorem clearExchange_shutCaller (s : State) : (clearExchange s).shutCaller = s.shutCaller := rfl
@[simp] theorem clearExchange_history (s : State) : (clearExchange s).history = s.history := rfl
@[simp] theorem clearExchange_inputs (s : State) : (clearExchange s).inputs = s.inputs := rfl
@[simp] theorem clearExchange_held (s : State) : (clearExchange s).held = s.held := rfl
@[simp] theorem clearExchange_portCaller (s : State) : (clearExchange s).portCaller = s.portCaller := rfl
@[simp] theorem clearExchange_xin (s : State) : (clearExchange s).xin = [] := rfl

/-! `clearWake` -/
@[simp] theorem clearWake_par (s : State) : (clearWake s).par = s.par := rfl
@[simp] theorem clearWake_cfgWcode (s : State) : (clearWake s).cfgWcode = s.cfgWcode := rfl
@[simp] theorem clearWake_cfgW (s : State) : (clearWake s).cfgW = s.cfgW := rfl
@[simp] theorem clearWake_cfgZa (s : State) : (clearWake s).cfgZa = s.cfgZa := rfl
@[simp] theorem clearWake_cfgTscap (s : State) : (clearWake s).cfgTscap = s.cfgTscap := rfl
@[simp] theorem clearWake_phase (s : State) : (clearWake s).phase = s.phase := rfl
@[simp] theorem clearWake_xkind (s : State) : (clearWake s).xkind = s.xkind := rfl
@[simp] theorem clearWake_xout (s : State) : (clearWake s).xout = s.xout := rfl
@[simp] theorem clearWake_xlen (s : State) : (clearWake s).xlen = s.xlen := rfl
@[simp] theorem clearWake_irqPending (s : State) : (clearWake s).irqPending = false := rfl
@[simp] theorem clearWake_freshWake (s : State) : (clearWake s).freshWake = false := rfl
@[simp] theorem clearWake_stallPolls (s : State) : (clearWake s).stallPolls = s.stallPolls := rfl
@[simp] theorem clearWake_fatalCause (s : State) : (clearWake s).fatalCause = s.fatalCause := rfl
@[simp] theorem clearWake_txc (s : State) : (clearWake s).txc = s.txc := rfl
@[simp] theorem clearWake_rca (s : State) : (clearWake s).rca = s.rca := rfl
@[simp] theorem clearWake_syncSeen (s : State) : (clearWake s).syncSeen = s.syncSeen := rfl
@[simp] theorem clearWake_slot (s : State) : (clearWake s).slot = s.slot := rfl
@[simp] theorem clearWake_ctrlq (s : State) : (clearWake s).ctrlq = s.ctrlq := rfl
@[simp] theorem clearWake_txq (s : State) : (clearWake s).txq = s.txq := rfl
@[simp] theorem clearWake_txcur (s : State) : (clearWake s).txcur = s.txcur := rfl
@[simp] theorem clearWake_rxst (s : State) : (clearWake s).rxst = s.rxst := rfl
@[simp] theorem clearWake_rxbuf (s : State) : (clearWake s).rxbuf = s.rxbuf := rfl
@[simp] theorem clearWake_rxts (s : State) : (clearWake s).rxts = s.rxts := rfl
@[simp] theorem clearWake_rxq (s : State) : (clearWake s).rxq = s.rxq := rfl
@[simp] theorem clearWake_stUnsync (s : State) : (clearWake s).stUnsync = s.stUnsync := rfl
@[simp] theorem clearWake_stExst (s : State) : (clearWake s).stExst = s.stExst := rfl
@[simp] theorem clearWake_stHdrb (s : State) : (clearWake s).stHdrb = s.stHdrb := rfl
@[simp] theorem clearWake_stUnreach (s : State) : (clearWake s).stUnreach = s.stUnreach := rfl
@[simp] theorem clearWake_stFtrerr (s : State) : (clearWake s).stFtrerr = s.stFtrerr := rfl
@[simp] theorem clearWake_tsEn (s : State) : (clearWake s).tsEn = s.tsEn := rfl
@[simp] theorem clearWake_cntRxDrop (s : State) : (clearWake s).cntRxDrop = s.cntRxDrop := rfl
@[simp] theorem clearWake_cntRxOvf (s : State) : (clearWake s).cntRxOvf = s.cntRxOvf := rfl
@[simp] theorem clearWake_cntFtrErr (s : State) : (clearWake s).cntFtrErr = s.cntFtrErr := rfl
@[simp] theorem clearWake_cntTxAbort (s : State) : (clearWake s).cntTxAbort = s.cntTxAbort := rfl
@[simp] theorem clearWake_shutCaller (s : State) : (clearWake s).shutCaller = s.shutCaller := rfl
@[simp] theorem clearWake_history (s : State) : (clearWake s).history = s.history := rfl
@[simp] theorem clearWake_inputs (s : State) : (clearWake s).inputs = s.inputs := rfl
@[simp] theorem clearWake_held (s : State) : (clearWake s).held = s.held := rfl
@[simp] theorem clearWake_portCaller (s : State) : (clearWake s).portCaller = s.portCaller := rfl
@[simp] theorem clearWake_xin (s : State) : (clearWake s).xin = s.xin := rfl

/-! `startExchange` -/
@[simp] theorem startExchange_par (s : State) (k : XKind) (out : List Byte) (len : Nat) : (startExchange k out len s).par = s.par := rfl
@[simp] theorem startExchange_cfgWcode (s : State) (k : XKind) (out : List Byte) (len : Nat) : (startExchange k out len s).cfgWcode = s.cfgWcode := rfl
@[simp] theorem startExchange_cfgW (s : State) (k : XKind) (out : List Byte) (len : Nat) : (startExchange k out len s).cfgW = s.cfgW := rfl
@[simp] theorem startExchange_cfgZa (s : State) (k : XKind) (out : List Byte) (len : Nat) : (startExchange k out len s).cfgZa = s.cfgZa := rfl
@[simp] theorem startExchange_cfgTscap (s : State) (k : XKind) (out : List Byte) (len : Nat) : (startExchange k out len s).cfgTscap = s.cfgTscap := rfl
@[simp] theorem startExchange_phase (s : State) (k : XKind) (out : List Byte) (len : Nat) : (startExchange k out len s).phase = .exchanging := rfl
@[simp] theorem startExchange_xkind (s : State) (k : XKind) (out : List Byte) (len : Nat) : (startExchange k out len s).xkind = k := rfl
@[simp] theorem startExchange_xout (s : State) (k : XKind) (out : List Byte) (len : Nat) : (startExchange k out len s).xout = out := rfl
@[simp] theorem startExchange_xlen (s : State) (k : XKind) (out : List Byte) (len : Nat) : (startExchange k out len s).xlen = len := rfl
@[simp] theorem startExchange_irqPending (s : State) (k : XKind) (out : List Byte) (len : Nat) : (startExchange k out len s).irqPending = s.irqPending := rfl
@[simp] theorem startExchange_freshWake (s : State) (k : XKind) (out : List Byte) (len : Nat) : (startExchange k out len s).freshWake = s.freshWake := rfl
@[simp] theorem startExchange_stallPolls (s : State) (k : XKind) (out : List Byte) (len : Nat) : (startExchange k out len s).stallPolls = s.stallPolls := rfl
@[simp] theorem startExchange_fatalCause (s : State) (k : XKind) (out : List Byte) (len : Nat) : (startExchange k out len s).fatalCause = s.fatalCause := rfl
@[simp] theorem startExchange_txc (s : State) (k : XKind) (out : List Byte) (len : Nat) : (startExchange k out len s).txc = s.txc := rfl
@[simp] theorem startExchange_rca (s : State) (k : XKind) (out : List Byte) (len : Nat) : (startExchange k out len s).rca = s.rca := rfl
@[simp] theorem startExchange_syncSeen (s : State) (k : XKind) (out : List Byte) (len : Nat) : (startExchange k out len s).syncSeen = s.syncSeen := rfl
@[simp] theorem startExchange_slot (s : State) (k : XKind) (out : List Byte) (len : Nat) : (startExchange k out len s).slot = s.slot := rfl
@[simp] theorem startExchange_ctrlq (s : State) (k : XKind) (out : List Byte) (len : Nat) : (startExchange k out len s).ctrlq = s.ctrlq := rfl
@[simp] theorem startExchange_txq (s : State) (k : XKind) (out : List Byte) (len : Nat) : (startExchange k out len s).txq = s.txq := rfl
@[simp] theorem startExchange_txcur (s : State) (k : XKind) (out : List Byte) (len : Nat) : (startExchange k out len s).txcur = s.txcur := rfl
@[simp] theorem startExchange_rxst (s : State) (k : XKind) (out : List Byte) (len : Nat) : (startExchange k out len s).rxst = s.rxst := rfl
@[simp] theorem startExchange_rxbuf (s : State) (k : XKind) (out : List Byte) (len : Nat) : (startExchange k out len s).rxbuf = s.rxbuf := rfl
@[simp] theorem startExchange_rxts (s : State) (k : XKind) (out : List Byte) (len : Nat) : (startExchange k out len s).rxts = s.rxts := rfl
@[simp] theorem startExchange_rxq (s : State) (k : XKind) (out : List Byte) (len : Nat) : (startExchange k out len s).rxq = s.rxq := rfl
@[simp] theorem startExchange_stUnsync (s : State) (k : XKind) (out : List Byte) (len : Nat) : (startExchange k out len s).stUnsync = s.stUnsync := rfl
@[simp] theorem startExchange_stExst (s : State) (k : XKind) (out : List Byte) (len : Nat) : (startExchange k out len s).stExst = s.stExst := rfl
@[simp] theorem startExchange_stHdrb (s : State) (k : XKind) (out : List Byte) (len : Nat) : (startExchange k out len s).stHdrb = s.stHdrb := rfl
@[simp] theorem startExchange_stUnreach (s : State) (k : XKind) (out : List Byte) (len : Nat) : (startExchange k out len s).stUnreach = s.stUnreach := rfl
@[simp] theorem startExchange_stFtrerr (s : State) (k : XKind) (out : List Byte) (len : Nat) : (startExchange k out len s).stFtrerr = s.stFtrerr := rfl
@[simp] theorem startExchange_tsEn (s : State) (k : XKind) (out : List Byte) (len : Nat) : (startExchange k out len s).tsEn = s.tsEn := rfl
@[simp] theorem startExchange_cntRxDrop (s : State) (k : XKind) (out : List Byte) (len : Nat) : (startExchange k out len s).cntRxDrop = s.cntRxDrop := rfl
@[simp] theorem startExchange_cntRxOvf (s : State) (k : XKind) (out : List Byte) (len : Nat) : (startExchange k out len s).cntRxOvf = s.cntRxOvf := rfl
@[simp] theorem startExchange_cntFtrErr (s : State) (k : XKind) (out : List Byte) (len : Nat) : (startExchange k out len s).cntFtrErr = s.cntFtrErr := rfl
@[simp] theorem startExchange_cntTxAbort (s : State) (k : XKind) (out : List Byte) (len : Nat) : (startExchange k out len s).cntTxAbort = s.cntTxAbort := rfl
@[simp] theorem startExchange_shutCaller (s : State) (k : XKind) (out : List Byte) (len : Nat) : (startExchange k out len s).shutCaller = s.shutCaller := rfl
@[simp] theorem startExchange_history (s : State) (k : XKind) (out : List Byte) (len : Nat) : (startExchange k out len s).history = s.history ++ [.xferReq out] := rfl
@[simp] theorem startExchange_inputs (s : State) (k : XKind) (out : List Byte) (len : Nat) : (startExchange k out len s).inputs = s.inputs := rfl
@[simp] theorem startExchange_held (s : State) (k : XKind) (out : List Byte) (len : Nat) : (startExchange k out len s).held = s.held := rfl
@[simp] theorem startExchange_portCaller (s : State) (k : XKind) (out : List Byte) (len : Nat) : (startExchange k out len s).portCaller = s.portCaller := rfl
@[simp] theorem startExchange_xin (s : State) (k : XKind) (out : List Byte) (len : Nat) : (startExchange k out len s).xin = s.xin := rfl

/-! `creditReplace` -/
@[simp] theorem creditReplace_par (s : State) (f : Footer) : (creditReplace f s).par = s.par := rfl
@[simp] theorem creditReplace_cfgWcode (s : State) (f : Footer) : (creditReplace f s).cfgWcode = s.cfgWcode := rfl
@[simp] theorem creditReplace_cfgW (s : State) (f : Footer) : (creditReplace f s).cfgW = s.cfgW := rfl
@[simp] theorem creditReplace_cfgZa (s : State) (f : Footer) : (creditReplace f s).cfgZa = s.cfgZa := rfl
@[simp] theorem creditReplace_cfgTscap (s : State) (f : Footer) : (creditReplace f s).cfgTscap = s.cfgTscap := rfl
@[simp] theorem creditReplace_phase (s : State) (f : Footer) : (creditReplace f s).phase = s.phase := rfl
@[simp] theorem creditReplace_xkind (s : State) (f : Footer) : (creditReplace f s).xkind = s.xkind := rfl
@[simp] theorem creditReplace_xout (s : State) (f : Footer) : (creditReplace f s).xout = s.xout := rfl
@[simp] theorem creditReplace_xlen (s : State) (f : Footer) : (creditReplace f s).xlen = s.xlen := rfl
@[simp] theorem creditReplace_irqPending (s : State) (f : Footer) : (creditReplace f s).irqPending = s.irqPending := rfl
@[simp] theorem creditReplace_freshWake (s : State) (f : Footer) : (creditReplace f s).freshWake = s.freshWake := rfl
@[simp] theorem creditReplace_stallPolls (s : State) (f : Footer) : (creditReplace f s).stallPolls = if f.txc = 0#5 then s.stallPolls else 0 := rfl
@[simp] theorem creditReplace_fatalCause (s : State) (f : Footer) : (creditReplace f s).fatalCause = s.fatalCause := rfl
@[simp] theorem creditReplace_txc (s : State) (f : Footer) : (creditReplace f s).txc = f.txc := rfl
@[simp] theorem creditReplace_rca (s : State) (f : Footer) : (creditReplace f s).rca = f.rca := rfl
@[simp] theorem creditReplace_syncSeen (s : State) (f : Footer) : (creditReplace f s).syncSeen = s.syncSeen := rfl
@[simp] theorem creditReplace_slot (s : State) (f : Footer) : (creditReplace f s).slot = s.slot := rfl
@[simp] theorem creditReplace_ctrlq (s : State) (f : Footer) : (creditReplace f s).ctrlq = s.ctrlq := rfl
@[simp] theorem creditReplace_txq (s : State) (f : Footer) : (creditReplace f s).txq = s.txq := rfl
@[simp] theorem creditReplace_txcur (s : State) (f : Footer) : (creditReplace f s).txcur = s.txcur := rfl
@[simp] theorem creditReplace_rxst (s : State) (f : Footer) : (creditReplace f s).rxst = s.rxst := rfl
@[simp] theorem creditReplace_rxbuf (s : State) (f : Footer) : (creditReplace f s).rxbuf = s.rxbuf := rfl
@[simp] theorem creditReplace_rxts (s : State) (f : Footer) : (creditReplace f s).rxts = s.rxts := rfl
@[simp] theorem creditReplace_rxq (s : State) (f : Footer) : (creditReplace f s).rxq = s.rxq := rfl
@[simp] theorem creditReplace_stUnsync (s : State) (f : Footer) : (creditReplace f s).stUnsync = s.stUnsync := rfl
@[simp] theorem creditReplace_stExst (s : State) (f : Footer) : (creditReplace f s).stExst = s.stExst := rfl
@[simp] theorem creditReplace_stHdrb (s : State) (f : Footer) : (creditReplace f s).stHdrb = s.stHdrb := rfl
@[simp] theorem creditReplace_stUnreach (s : State) (f : Footer) : (creditReplace f s).stUnreach = s.stUnreach := rfl
@[simp] theorem creditReplace_stFtrerr (s : State) (f : Footer) : (creditReplace f s).stFtrerr = s.stFtrerr := rfl
@[simp] theorem creditReplace_tsEn (s : State) (f : Footer) : (creditReplace f s).tsEn = s.tsEn := rfl
@[simp] theorem creditReplace_cntRxDrop (s : State) (f : Footer) : (creditReplace f s).cntRxDrop = s.cntRxDrop := rfl
@[simp] theorem creditReplace_cntRxOvf (s : State) (f : Footer) : (creditReplace f s).cntRxOvf = s.cntRxOvf := rfl
@[simp] theorem creditReplace_cntFtrErr (s : State) (f : Footer) : (creditReplace f s).cntFtrErr = s.cntFtrErr := rfl
@[simp] theorem creditReplace_cntTxAbort (s : State) (f : Footer) : (creditReplace f s).cntTxAbort = s.cntTxAbort := rfl
@[simp] theorem creditReplace_shutCaller (s : State) (f : Footer) : (creditReplace f s).shutCaller = s.shutCaller := rfl
@[simp] theorem creditReplace_history (s : State) (f : Footer) : (creditReplace f s).history = s.history := rfl
@[simp] theorem creditReplace_inputs (s : State) (f : Footer) : (creditReplace f s).inputs = s.inputs := rfl
@[simp] theorem creditReplace_held (s : State) (f : Footer) : (creditReplace f s).held = s.held := rfl
@[simp] theorem creditReplace_portCaller (s : State) (f : Footer) : (creditReplace f s).portCaller = s.portCaller := rfl
@[simp] theorem creditReplace_xin (s : State) (f : Footer) : (creditReplace f s).xin = s.xin := rfl

/-! `latchFooterFlags` -/
@[simp] theorem latchFooterFlags_par (s : State) (f : Footer) : (latchFooterFlags f s).par = s.par := rfl
@[simp] theorem latchFooterFlags_cfgWcode (s : State) (f : Footer) : (latchFooterFlags f s).cfgWcode = s.cfgWcode := rfl
@[simp] theorem latchFooterFlags_cfgW (s : State) (f : Footer) : (latchFooterFlags f s).cfgW = s.cfgW := rfl
@[simp] theorem latchFooterFlags_cfgZa (s : State) (f : Footer) : (latchFooterFlags f s).cfgZa = s.cfgZa := rfl
@[simp] theorem latchFooterFlags_cfgTscap (s : State) (f : Footer) : (latchFooterFlags f s).cfgTscap = s.cfgTscap := rfl
@[simp] theorem latchFooterFlags_phase (s : State) (f : Footer) : (latchFooterFlags f s).phase = s.phase := rfl
@[simp] theorem latchFooterFlags_xkind (s : State) (f : Footer) : (latchFooterFlags f s).xkind = s.xkind := rfl
@[simp] theorem latchFooterFlags_xout (s : State) (f : Footer) : (latchFooterFlags f s).xout = s.xout := rfl
@[simp] theorem latchFooterFlags_xlen (s : State) (f : Footer) : (latchFooterFlags f s).xlen = s.xlen := rfl
@[simp] theorem latchFooterFlags_irqPending (s : State) (f : Footer) : (latchFooterFlags f s).irqPending = s.irqPending := rfl
@[simp] theorem latchFooterFlags_freshWake (s : State) (f : Footer) : (latchFooterFlags f s).freshWake = s.freshWake := rfl
@[simp] theorem latchFooterFlags_stallPolls (s : State) (f : Footer) : (latchFooterFlags f s).stallPolls = s.stallPolls := rfl
@[simp] theorem latchFooterFlags_fatalCause (s : State) (f : Footer) : (latchFooterFlags f s).fatalCause = s.fatalCause := rfl
@[simp] theorem latchFooterFlags_txc (s : State) (f : Footer) : (latchFooterFlags f s).txc = s.txc := rfl
@[simp] theorem latchFooterFlags_rca (s : State) (f : Footer) : (latchFooterFlags f s).rca = s.rca := rfl
@[simp] theorem latchFooterFlags_syncSeen (s : State) (f : Footer) : (latchFooterFlags f s).syncSeen = s.syncSeen := rfl
@[simp] theorem latchFooterFlags_slot (s : State) (f : Footer) : (latchFooterFlags f s).slot = s.slot := rfl
@[simp] theorem latchFooterFlags_ctrlq (s : State) (f : Footer) : (latchFooterFlags f s).ctrlq = s.ctrlq := rfl
@[simp] theorem latchFooterFlags_txq (s : State) (f : Footer) : (latchFooterFlags f s).txq = s.txq := rfl
@[simp] theorem latchFooterFlags_txcur (s : State) (f : Footer) : (latchFooterFlags f s).txcur = s.txcur := rfl
@[simp] theorem latchFooterFlags_rxst (s : State) (f : Footer) : (latchFooterFlags f s).rxst = s.rxst := rfl
@[simp] theorem latchFooterFlags_rxbuf (s : State) (f : Footer) : (latchFooterFlags f s).rxbuf = s.rxbuf := rfl
@[simp] theorem latchFooterFlags_rxts (s : State) (f : Footer) : (latchFooterFlags f s).rxts = s.rxts := rfl
@[simp] theorem latchFooterFlags_rxq (s : State) (f : Footer) : (latchFooterFlags f s).rxq = s.rxq := rfl
@[simp] theorem latchFooterFlags_stUnsync (s : State) (f : Footer) : (latchFooterFlags f s).stUnsync = s.stUnsync := rfl
@[simp] theorem latchFooterFlags_stExst (s : State) (f : Footer) : (latchFooterFlags f s).stExst = (s.stExst || bitSet f.exst) := rfl
@[simp] theorem latchFooterFlags_stHdrb (s : State) (f : Footer) : (latchFooterFlags f s).stHdrb = (s.stHdrb || bitSet f.hdrb) := rfl
@[simp] theorem latchFooterFlags_stUnreach (s : State) (f : Footer) : (latchFooterFlags f s).stUnreach = s.stUnreach := rfl
@[simp] theorem latchFooterFlags_stFtrerr (s : State) (f : Footer) : (latchFooterFlags f s).stFtrerr = s.stFtrerr := rfl
@[simp] theorem latchFooterFlags_tsEn (s : State) (f : Footer) : (latchFooterFlags f s).tsEn = s.tsEn := rfl
@[simp] theorem latchFooterFlags_cntRxDrop (s : State) (f : Footer) : (latchFooterFlags f s).cntRxDrop = s.cntRxDrop := rfl
@[simp] theorem latchFooterFlags_cntRxOvf (s : State) (f : Footer) : (latchFooterFlags f s).cntRxOvf = s.cntRxOvf := rfl
@[simp] theorem latchFooterFlags_cntFtrErr (s : State) (f : Footer) : (latchFooterFlags f s).cntFtrErr = s.cntFtrErr := rfl
@[simp] theorem latchFooterFlags_cntTxAbort (s : State) (f : Footer) : (latchFooterFlags f s).cntTxAbort = s.cntTxAbort := rfl
@[simp] theorem latchFooterFlags_shutCaller (s : State) (f : Footer) : (latchFooterFlags f s).shutCaller = s.shutCaller := rfl
@[simp] theorem latchFooterFlags_history (s : State) (f : Footer) : (latchFooterFlags f s).history = s.history := rfl
@[simp] theorem latchFooterFlags_inputs (s : State) (f : Footer) : (latchFooterFlags f s).inputs = s.inputs := rfl
@[simp] theorem latchFooterFlags_held (s : State) (f : Footer) : (latchFooterFlags f s).held = s.held := rfl
@[simp] theorem latchFooterFlags_portCaller (s : State) (f : Footer) : (latchFooterFlags f s).portCaller = s.portCaller := rfl
@[simp] theorem latchFooterFlags_xin (s : State) (f : Footer) : (latchFooterFlags f s).xin = s.xin := rfl

/-! `footerError` -/
@[simp] theorem footerError_par (s : State) : (footerError s).par = s.par := rfl
@[simp] theorem footerError_cfgWcode (s : State) : (footerError s).cfgWcode = s.cfgWcode := rfl
@[simp] theorem footerError_cfgW (s : State) : (footerError s).cfgW = s.cfgW := rfl
@[simp] theorem footerError_cfgZa (s : State) : (footerError s).cfgZa = s.cfgZa := rfl
@[simp] theorem footerError_cfgTscap (s : State) : (footerError s).cfgTscap = s.cfgTscap := rfl
@[simp] theorem footerError_phase (s : State) : (footerError s).phase = s.phase := rfl
@[simp] theorem footerError_xkind (s : State) : (footerError s).xkind = s.xkind := rfl
@[simp] theorem footerError_xout (s : State) : (footerError s).xout = s.xout := rfl
@[simp] theorem footerError_xlen (s : State) : (footerError s).xlen = s.xlen := rfl
@[simp] theorem footerError_irqPending (s : State) : (footerError s).irqPending = s.irqPending := rfl
@[simp] theorem footerError_freshWake (s : State) : (footerError s).freshWake = s.freshWake := rfl
@[simp] theorem footerError_stallPolls (s : State) : (footerError s).stallPolls = s.stallPolls := rfl
@[simp] theorem footerError_fatalCause (s : State) : (footerError s).fatalCause = s.fatalCause := rfl
@[simp] theorem footerError_txc (s : State) : (footerError s).txc = s.txc := rfl
@[simp] theorem footerError_rca (s : State) : (footerError s).rca = s.rca := rfl
@[simp] theorem footerError_syncSeen (s : State) : (footerError s).syncSeen = s.syncSeen := rfl
@[simp] theorem footerError_slot (s : State) : (footerError s).slot = s.slot := rfl
@[simp] theorem footerError_ctrlq (s : State) : (footerError s).ctrlq = s.ctrlq := rfl
@[simp] theorem footerError_txq (s : State) : (footerError s).txq = s.txq := rfl
@[simp] theorem footerError_txcur (s : State) : (footerError s).txcur = s.txcur := rfl
@[simp] theorem footerError_rxst (s : State) : (footerError s).rxst = s.rxst := rfl
@[simp] theorem footerError_rxbuf (s : State) : (footerError s).rxbuf = s.rxbuf := rfl
@[simp] theorem footerError_rxts (s : State) : (footerError s).rxts = s.rxts := rfl
@[simp] theorem footerError_rxq (s : State) : (footerError s).rxq = s.rxq := rfl
@[simp] theorem footerError_stUnsync (s : State) : (footerError s).stUnsync = s.stUnsync := rfl
@[simp] theorem footerError_stExst (s : State) : (footerError s).stExst = s.stExst := rfl
@[simp] theorem footerError_stHdrb (s : State) : (footerError s).stHdrb = s.stHdrb := rfl
@[simp] theorem footerError_stUnreach (s : State) : (footerError s).stUnreach = s.stUnreach := rfl
@[simp] theorem footerError_stFtrerr (s : State) : (footerError s).stFtrerr = true := rfl
@[simp] theorem footerError_tsEn (s : State) : (footerError s).tsEn = s.tsEn := rfl
@[simp] theorem footerError_cntRxDrop (s : State) : (footerError s).cntRxDrop = s.cntRxDrop := rfl
@[simp] theorem footerError_cntRxOvf (s : State) : (footerError s).cntRxOvf = s.cntRxOvf := rfl
@[simp] theorem footerError_cntFtrErr (s : State) : (footerError s).cntFtrErr = s.cntFtrErr + 1#32 := rfl
@[simp] theorem footerError_cntTxAbort (s : State) : (footerError s).cntTxAbort = s.cntTxAbort := rfl
@[simp] theorem footerError_shutCaller (s : State) : (footerError s).shutCaller = s.shutCaller := rfl
@[simp] theorem footerError_history (s : State) : (footerError s).history = s.history := rfl
@[simp] theorem footerError_inputs (s : State) : (footerError s).inputs = s.inputs := rfl
@[simp] theorem footerError_held (s : State) : (footerError s).held = s.held := rfl
@[simp] theorem footerError_portCaller (s : State) : (footerError s).portCaller = s.portCaller := rfl
@[simp] theorem footerError_xin (s : State) : (footerError s).xin = s.xin := rfl

/-! `failPending` -/
@[simp] theorem failPending_par (s : State) (code : Status) : (failPending code s).par = s.par := rfl
@[simp] theorem failPending_cfgWcode (s : State) (code : Status) : (failPending code s).cfgWcode = s.cfgWcode := rfl
@[simp] theorem failPending_cfgW (s : State) (code : Status) : (failPending code s).cfgW = s.cfgW := rfl
@[simp] theorem failPending_cfgZa (s : State) (code : Status) : (failPending code s).cfgZa = s.cfgZa := rfl
@[simp] theorem failPending_cfgTscap (s : State) (code : Status) : (failPending code s).cfgTscap = s.cfgTscap := rfl
@[simp] theorem failPending_phase (s : State) (code : Status) : (failPending code s).phase = s.phase := rfl
@[simp] theorem failPending_xkind (s : State) (code : Status) : (failPending code s).xkind = s.xkind := rfl
@[simp] theorem failPending_xout (s : State) (code : Status) : (failPending code s).xout = s.xout := rfl
@[simp] theorem failPending_xlen (s : State) (code : Status) : (failPending code s).xlen = s.xlen := rfl
@[simp] theorem failPending_irqPending (s : State) (code : Status) : (failPending code s).irqPending = s.irqPending := rfl
@[simp] theorem failPending_freshWake (s : State) (code : Status) : (failPending code s).freshWake = s.freshWake := rfl
@[simp] theorem failPending_stallPolls (s : State) (code : Status) : (failPending code s).stallPolls = s.stallPolls := rfl
@[simp] theorem failPending_fatalCause (s : State) (code : Status) : (failPending code s).fatalCause = s.fatalCause := rfl
@[simp] theorem failPending_txc (s : State) (code : Status) : (failPending code s).txc = s.txc := rfl
@[simp] theorem failPending_rca (s : State) (code : Status) : (failPending code s).rca = s.rca := rfl
@[simp] theorem failPending_syncSeen (s : State) (code : Status) : (failPending code s).syncSeen = s.syncSeen := rfl
@[simp] theorem failPending_slot (s : State) (code : Status) : (failPending code s).slot = none := rfl
@[simp] theorem failPending_ctrlq (s : State) (code : Status) : (failPending code s).ctrlq = [] := rfl
@[simp] theorem failPending_txq (s : State) (code : Status) : (failPending code s).txq = s.txq := rfl
@[simp] theorem failPending_txcur (s : State) (code : Status) : (failPending code s).txcur = s.txcur := rfl
@[simp] theorem failPending_rxst (s : State) (code : Status) : (failPending code s).rxst = s.rxst := rfl
@[simp] theorem failPending_rxbuf (s : State) (code : Status) : (failPending code s).rxbuf = s.rxbuf := rfl
@[simp] theorem failPending_rxts (s : State) (code : Status) : (failPending code s).rxts = s.rxts := rfl
@[simp] theorem failPending_rxq (s : State) (code : Status) : (failPending code s).rxq = s.rxq := rfl
@[simp] theorem failPending_stUnsync (s : State) (code : Status) : (failPending code s).stUnsync = s.stUnsync := rfl
@[simp] theorem failPending_stExst (s : State) (code : Status) : (failPending code s).stExst = s.stExst := rfl
@[simp] theorem failPending_stHdrb (s : State) (code : Status) : (failPending code s).stHdrb = s.stHdrb := rfl
@[simp] theorem failPending_stUnreach (s : State) (code : Status) : (failPending code s).stUnreach = s.stUnreach := rfl
@[simp] theorem failPending_stFtrerr (s : State) (code : Status) : (failPending code s).stFtrerr = s.stFtrerr := rfl
@[simp] theorem failPending_tsEn (s : State) (code : Status) : (failPending code s).tsEn = s.tsEn := rfl
@[simp] theorem failPending_cntRxDrop (s : State) (code : Status) : (failPending code s).cntRxDrop = s.cntRxDrop := rfl
@[simp] theorem failPending_cntRxOvf (s : State) (code : Status) : (failPending code s).cntRxOvf = s.cntRxOvf := rfl
@[simp] theorem failPending_cntFtrErr (s : State) (code : Status) : (failPending code s).cntFtrErr = s.cntFtrErr := rfl
@[simp] theorem failPending_cntTxAbort (s : State) (code : Status) : (failPending code s).cntTxAbort = s.cntTxAbort := rfl
@[simp] theorem failPending_shutCaller (s : State) (code : Status) : (failPending code s).shutCaller = s.shutCaller := rfl
@[simp] theorem failPending_history (s : State) (code : Status) : (failPending code s).history = s.history ++ (pendingTxns s).map (fun t => respondInd t.caller t.op.opc code []) := rfl
@[simp] theorem failPending_inputs (s : State) (code : Status) : (failPending code s).inputs = s.inputs := rfl
@[simp] theorem failPending_held (s : State) (code : Status) : (failPending code s).held = s.held := rfl
@[simp] theorem failPending_portCaller (s : State) (code : Status) : (failPending code s).portCaller = s.portCaller := rfl
@[simp] theorem failPending_xin (s : State) (code : Status) : (failPending code s).xin = s.xin := rfl

/-! `releaseFrames` -/
@[simp] theorem releaseFrames_par (s : State) : (releaseFrames s).par = s.par := rfl
@[simp] theorem releaseFrames_cfgWcode (s : State) : (releaseFrames s).cfgWcode = s.cfgWcode := rfl
@[simp] theorem releaseFrames_cfgW (s : State) : (releaseFrames s).cfgW = s.cfgW := rfl
@[simp] theorem releaseFrames_cfgZa (s : State) : (releaseFrames s).cfgZa = s.cfgZa := rfl
@[simp] theorem releaseFrames_cfgTscap (s : State) : (releaseFrames s).cfgTscap = s.cfgTscap := rfl
@[simp] theorem releaseFrames_phase (s : State) : (releaseFrames s).phase = s.phase := rfl
@[simp] theorem releaseFrames_xkind (s : State) : (releaseFrames s).xkind = s.xkind := rfl
@[simp] theorem releaseFrames_xout (s : State) : (releaseFrames s).xout = s.xout := rfl
@[simp] theorem releaseFrames_xlen (s : State) : (releaseFrames s).xlen = s.xlen := rfl
@[simp] theorem releaseFrames_irqPending (s : State) : (releaseFrames s).irqPending = s.irqPending := rfl
@[simp] theorem releaseFrames_freshWake (s : State) : (releaseFrames s).freshWake = s.freshWake := rfl
@[simp] theorem releaseFrames_stallPolls (s : State) : (releaseFrames s).stallPolls = s.stallPolls := rfl
@[simp] theorem releaseFrames_fatalCause (s : State) : (releaseFrames s).fatalCause = s.fatalCause := rfl
@[simp] theorem releaseFrames_txc (s : State) : (releaseFrames s).txc = s.txc := rfl
@[simp] theorem releaseFrames_rca (s : State) : (releaseFrames s).rca = s.rca := rfl
@[simp] theorem releaseFrames_syncSeen (s : State) : (releaseFrames s).syncSeen = s.syncSeen := rfl
@[simp] theorem releaseFrames_slot (s : State) : (releaseFrames s).slot = s.slot := rfl
@[simp] theorem releaseFrames_ctrlq (s : State) : (releaseFrames s).ctrlq = s.ctrlq := rfl
@[simp] theorem releaseFrames_txq (s : State) : (releaseFrames s).txq = [] := rfl
@[simp] theorem releaseFrames_txcur (s : State) : (releaseFrames s).txcur = none := rfl
@[simp] theorem releaseFrames_rxst (s : State) : (releaseFrames s).rxst = s.rxst := rfl
@[simp] theorem releaseFrames_rxbuf (s : State) : (releaseFrames s).rxbuf = s.rxbuf := rfl
@[simp] theorem releaseFrames_rxts (s : State) : (releaseFrames s).rxts = s.rxts := rfl
@[simp] theorem releaseFrames_rxq (s : State) : (releaseFrames s).rxq = s.rxq := rfl
@[simp] theorem releaseFrames_stUnsync (s : State) : (releaseFrames s).stUnsync = s.stUnsync := rfl
@[simp] theorem releaseFrames_stExst (s : State) : (releaseFrames s).stExst = s.stExst := rfl
@[simp] theorem releaseFrames_stHdrb (s : State) : (releaseFrames s).stHdrb = s.stHdrb := rfl
@[simp] theorem releaseFrames_stUnreach (s : State) : (releaseFrames s).stUnreach = s.stUnreach := rfl
@[simp] theorem releaseFrames_stFtrerr (s : State) : (releaseFrames s).stFtrerr = s.stFtrerr := rfl
@[simp] theorem releaseFrames_tsEn (s : State) : (releaseFrames s).tsEn = s.tsEn := rfl
@[simp] theorem releaseFrames_cntRxDrop (s : State) : (releaseFrames s).cntRxDrop = s.cntRxDrop := rfl
@[simp] theorem releaseFrames_cntRxOvf (s : State) : (releaseFrames s).cntRxOvf = s.cntRxOvf := rfl
@[simp] theorem releaseFrames_cntFtrErr (s : State) : (releaseFrames s).cntFtrErr = s.cntFtrErr := rfl
@[simp] theorem releaseFrames_cntTxAbort (s : State) : (releaseFrames s).cntTxAbort = s.cntTxAbort := rfl
@[simp] theorem releaseFrames_shutCaller (s : State) : (releaseFrames s).shutCaller = s.shutCaller := rfl
@[simp] theorem releaseFrames_history (s : State) : (releaseFrames s).history = s.history ++ (heldFrames s).map .txUndelivered := rfl
@[simp] theorem releaseFrames_inputs (s : State) : (releaseFrames s).inputs = s.inputs := rfl
@[simp] theorem releaseFrames_held (s : State) : (releaseFrames s).held = s.held := rfl
@[simp] theorem releaseFrames_portCaller (s : State) : (releaseFrames s).portCaller = s.portCaller := rfl
@[simp] theorem releaseFrames_xin (s : State) : (releaseFrames s).xin = s.xin := rfl

end Sys2Proof.Machine
end

