-- ==== Sys2Proof/Laws/Ops.lean ====
section
/-! SUPPORT. One lemma for each shared operation that says once everything it can do: the record it answers, with the guard
inside the fields, or the guard of an inbound word as a conjunction. -/

namespace Sys2Proof.Machine

/-! ### Receive side -/

theorem rxDiscard_eq (count : Bool) (s : State) :
    rxDiscard count s =
      { s with
        rxst := .idle
        rxbuf := if s.rxst = .asm then [] else s.rxbuf
        rxts := if s.rxst = .asm then false else s.rxts
        cntRxDrop := if s.rxst = .asm ∧ count = true then s.cntRxDrop + 1#32 else s.cntRxDrop } := by
  unfold rxDiscard
  by_cases h : s.rxst = .asm
  · cases count <;> simp [h]
  · have h' : s.rxst = .idle := by cases hr : s.rxst <;> simp_all
    cases s; simp_all

theorem rxDiscard_true (s : State) : rxDiscard true s = s.dropIfAsm := by
  simp [rxDiscard, State.dropIfAsm, State.dropped]

/-- Discarding without count leaves no frame in progress and changes nothing else. -/
theorem rxDiscard_false (s : State) :
    rxDiscard false s =
      { s with
        rxst := .idle, rxbuf := if s.rxst = .asm then [] else s.rxbuf, rxts := if s.rxst = .asm then false else s.rxts } := by
  rw [rxDiscard_eq]
  simp

theorem rxAppend_eq (bytes : List Byte) {s : State} (h : s.rxst = .asm) :
    rxAppend bytes s =
      if s.par.rxMaxFrame < s.rxbuf.length + bytes.length then s.dropped
      else { s with rxbuf := s.rxbuf ++ bytes } := by
  simp [rxAppend, rxDiscard, State.dropped, h]

theorem rxStart_eq (bytes : List Byte) (rtsa : Bit) (s : State) : rxStart bytes rtsa s = s.started bytes rtsa := by
  simp [rxStart, rxAppend, rxDiscard, State.started, State.dropped, bitSet]

theorem rxFinish_eq (s : State) : rxFinish s = s.delivered s.rxbuf s.rxts := by
  unfold rxFinish State.delivered; split <;> rfl

/-- Appending to the frame in progress and finishing it, unless it became too long. -/
theorem rxFinishIfAsm_rxAppend (bytes : List Byte) {s : State} (h : s.rxst = .asm) :
    rxFinishIfAsm (rxAppend bytes s) =
      if s.par.rxMaxFrame < s.rxbuf.length + bytes.length then s.dropped
      else s.delivered (s.rxbuf ++ bytes) s.rxts := by
  rw [rxAppend_eq bytes h]
  split
  · simp [rxFinishIfAsm, State.dropped]
  · simp [rxFinishIfAsm, rxFinish_eq, h, State.delivered]

/-- A frame that starts and ends at once. -/
theorem rxFinishIfAsm_rxStart (bytes : List Byte) (rtsa : Bit) (s : State) :
    rxFinishIfAsm (rxStart bytes rtsa s) =
      if s.par.rxMaxFrame < bytes.length then s.dropped else s.delivered bytes (s.tsEn && rtsa == 1#1) := by
  rw [rxStart_eq]
  unfold State.started
  split
  · simp [rxFinishIfAsm, State.dropped]
  · simp [rxFinishIfAsm, rxFinish_eq, State.delivered]

/-- What the receive side may write: the frame in progress, the queue of delivered frames, which it extends by the frames it
announces, and the two receive counters (43_data_framer.md R270 to R279). -/
def RxWrites (s t : State) : Prop :=
  ∃ rxst rxbuf rxts drop ovf frames,
    t = { s with
      rxst := rxst, rxbuf := rxbuf, rxts := rxts, cntRxDrop := drop, cntRxOvf := ovf, rxq := s.rxq ++ frames
      history := s.history ++ frames.map (fun f => Indication.rxFrame f.bytes f.ts) }

theorem RxWrites.refl (s : State) : RxWrites s s :=
  ⟨s.rxst, s.rxbuf, s.rxts, s.cntRxDrop, s.cntRxOvf, [], by simp⟩

theorem RxWrites.trans {s t u : State} (h1 : RxWrites s t) (h2 : RxWrites t u) : RxWrites s u := by
  obtain ⟨_, _, _, _, _, f1, rfl⟩ := h1
  obtain ⟨a, b, c, d, e, f2, rfl⟩ := h2
  exact ⟨a, b, c, d, e, f1 ++ f2, by simp⟩

theorem rxDiscard_writes (count : Bool) (s : State) : RxWrites s (rxDiscard count s) :=
  ⟨_, _, _, _, _, [], by rw [rxDiscard_eq]; simp only [List.append_nil, List.map_nil]; rfl⟩

theorem rxAppend_writes (bytes : List Byte) (s : State) : RxWrites s (rxAppend bytes s) := by
  unfold rxAppend
  split
  · exact rxDiscard_writes true s
  · exact ⟨s.rxst, s.rxbuf ++ bytes, s.rxts, s.cntRxDrop, s.cntRxOvf, [], by simp⟩

theorem rxStart_writes (bytes : List Byte) (rtsa : Bit) (s : State) : RxWrites s (rxStart bytes rtsa s) :=
  RxWrites.trans ⟨.asm, [], s.tsEn && bitSet rtsa, s.cntRxDrop, s.cntRxOvf, [], by simp⟩ (rxAppend_writes bytes _)

theorem rxFinish_writes (s : State) : RxWrites s (rxFinish s) := by
  unfold rxFinish
  split
  · exact ⟨.idle, [], false, s.cntRxDrop, s.cntRxOvf + 1#32, [], by simp⟩
  · exact ⟨.idle, [], false, s.cntRxDrop, s.cntRxOvf, [{ bytes := s.rxbuf, ts := s.rxts }], by simp⟩

theorem rxFinishIfAsm_writes (s : State) : RxWrites s (rxFinishIfAsm s) := by
  unfold rxFinishIfAsm
  split
  · exact rxFinish_writes s
  · exact .refl s

/-! ### Transmit side -/

/-- What the transmit side may write after a chunk: the frame in flight, the abort counter and one announcement
(43_data_framer.md R263 to R265). -/
def TxWrites (s t : State) : Prop :=
  ∃ txcur abort released, t = { s with txcur := txcur, cntTxAbort := abort, history := s.history ++ released } ∧
    releasedFrames released ++ txcur.toList.map (fun c => c.frame) = s.txcur.toList.map (fun c => c.frame) ∧
    indicatedFrames released = []

theorem TxWrites.refl (s : State) : TxWrites s s :=
  ⟨s.txcur, s.cntTxAbort, [], by simp [releasedFrames, indicatedFrames]⟩

theorem txCommit_writes (s : State) : TxWrites s (txCommit s) := by
  unfold txCommit
  cases hc : s.txcur with
  | none => exact ⟨s.txcur, s.cntTxAbort, [], by simp, by simp [releasedFrames], rfl⟩
  | some c =>
    simp only
    split
    · exact ⟨none, s.cntTxAbort, [.txDone c.frame], by simp, by simp [releasedFrames, hc], rfl⟩
    · exact ⟨some { c with cur := c.cur + s.xlen, hret := 0 }, s.cntTxAbort, [], by simp, by simp [releasedFrames, hc], rfl⟩

theorem txReject_writes (s : State) : TxWrites s (txReject s) := by
  unfold txReject
  cases hc : s.txcur with
  | none => exact ⟨s.txcur, s.cntTxAbort, [], by simp, by simp [releasedFrames], rfl⟩
  | some c =>
    simp only
    split
    · exact ⟨none, s.cntTxAbort + 1#32, [.txAborted c.frame], by simp, by simp [releasedFrames, hc], rfl⟩
    · exact ⟨some { c with hret := c.hret + 1 }, s.cntTxAbort, [], by simp, by simp [releasedFrames, hc], rfl⟩

theorem txRestart_eq (s : State) :
    txRestart s = { s with txcur := s.txcur.map (fun c => { c with cur := 0, hret := 0 }) } := by
  unfold txRestart
  cases hc : s.txcur
  · cases s; simp_all
  · rfl

theorem txRestart_writes (s : State) : TxWrites s (txRestart s) :=
  ⟨_, _, [], by rw [txRestart_eq]; simp only [List.append_nil]; rfl, by cases s.txcur <;> simp [releasedFrames], rfl⟩

theorem txSide_writes (f : Footer) (s : State) : TxWrites s (txSide f s) := by
  unfold txSide
  split
  · split
    · exact txReject_writes s
    · exact txCommit_writes s
  · exact .refl s

/-! ### Stall, control slot, teardown, failure -/

theorem stallCheck_eq (s : State) :
    stallCheck s =
      { s with fatalCause :=
          if txAvail s = true ∧ s.txc = 0#5 ∧ s.par.stallPollMax ≤ s.stallPolls ∧ s.fatalCause = .none then .linkStalled
          else s.fatalCause } := by
  unfold stallCheck; split <;> rfl

theorem slotNext_eq (s : State) : slotNext s = { s with slot := s.ctrlq.head?, ctrlq := s.ctrlq.tail } := by
  unfold slotNext
  cases h : s.ctrlq
  · cases s; simp_all
  · rfl

theorem teardown_eq (s : State) : teardown s = s.tornDown := by
  rw [teardown, rxDiscard_false]
  rfl

theorem enterFailed_eq (s : State) : enterFailed s = s.failedWith s.fatalCause := by
  rw [enterFailed, rxDiscard_false]
  rfl

theorem answerShutdown_eq (s : State) :
    answerShutdown s =
      { s with
        history := s.history ++ s.shutCaller.toList.map (fun c => respondInd c opcShutdown .ok []), shutCaller := none } := by
  unfold answerShutdown
  cases h : s.shutCaller
  · cases s; simp_all
  · rfl

/-- The end of a drain: the teardown, `STOPPED`, and the answer to the SHUTDOWN caller last (44_transfer_scheduler.md R324). -/
theorem finishDrain_eq (s : State) :
    finishDrain s =
      { s.tornDown with
        phase := .stopped, shutCaller := none
        history := s.tornDown.history ++ s.shutCaller.toList.map (fun c => respondInd c opcShutdown .ok []) } := by
  rw [finishDrain, teardown_eq, answerShutdown_eq]
  rfl

/-! ### The two ends of an exchange -/

/-- The guard of an inbound word passes where the word stands in the inbound string of an exchange in flight of its kind. -/
theorem inboundGuard_eq_none {kindOk : Bool} {off : Nat} {w : Word32} {s : State} :
    inboundGuard kindOk off w s = none ↔
      (s.phase = .exchanging ∨ s.phase = .draining) ∧ kindOk = true ∧ s.xin.length = s.xout.length ∧
        memRead s.xin off 4 = toBE32 w := by
  unfold inboundGuard inFlight
  constructor
  · intro h
    split at h <;> try contradiction
    split at h <;> try contradiction
    split at h <;> try contradiction
    rename_i h1 h2 h3
    simp only [not_or, not_not, Bool.not_eq_false, Bool.or_eq_true, beq_iff_eq] at h1 h2 h3
    exact ⟨h1.1, h1.2, h2.1, by rw [← h3, toBE32_be32 h2.2]⟩
  · rintro ⟨h1, h2, h3, h4⟩
    have : s.phase == .exchanging || s.phase == .draining := by simpa using h1
    simp [this, h2, h3, h4]

/-- A data or poll exchange completes with a next state exactly where its footer arrives. -/
theorem completeData_next {w : Word32} {rx : List Byte → State → State} {s t : State} :
    completeData w rx s = .next t ↔ s.FooterArrives w ∧
      t = finishExchange (dataComplete (decodeFooter s.par.paritySense s.cfgW (toBE32 w)) (rx (memRead s.xin 0 s.cfgW))
        (s.emit (.xferIn s.xin))) := by
  unfold completeData
  cases hg : inboundGuard (s.xkind != .ctrl) s.cfgW w s with
  | none =>
    have h := inboundGuard_eq_none.mp hg
    have ha : s.FooterArrives w := ⟨h.1, by simpa using h.2.1, h.2.2.1, h.2.2.2⟩
    constructor
    · intro e; injection e with e; exact ⟨ha, e.symm⟩
    · rintro ⟨-, rfl⟩; rfl
  | some e =>
    constructor
    · intro h; cases h
    · rintro ⟨⟨h1, h2, h3, h4⟩, -⟩
      rw [inboundGuard_eq_none.mpr ⟨h1, by simpa using h2, h3, h4⟩] at hg
      cases hg

/-- A control exchange completes with a next state exactly where its echo arrives and its transaction is in the slot. -/
theorem completeCtrl_next {w : Word32} {reply : Txn → State → State} {s t : State} :
    completeCtrl w reply s = .next t ↔ s.EchoArrives w ∧ ∃ a, s.slot = some a ∧
      t = finishExchange (reply a (s.emit (.xferIn s.xin))) := by
  unfold completeCtrl
  cases hg : inboundGuard (s.xkind == .ctrl) 4 w s with
  | none =>
    have h := inboundGuard_eq_none.mp hg
    have ha : s.EchoArrives w := ⟨h.1, by simpa using h.2.1, h.2.2.1, h.2.2.2⟩
    cases hs : s.slot with
    | none =>
      constructor
      · intro e; cases e
      · rintro ⟨-, a, ha, -⟩; cases ha
    | some a =>
      constructor
      · intro e; injection e with e; exact ⟨ha, a, rfl, e.symm⟩
      · rintro ⟨-, a', ha', rfl⟩; cases ha'; rfl
  | some e =>
    constructor
    · intro h; cases h
    · rintro ⟨⟨h1, h2, h3, h4⟩, -⟩
      rw [inboundGuard_eq_none.mpr ⟨h1, by simpa using h2, h3, h4⟩] at hg
      cases hg

/-- The end of a completed exchange, phase by phase. -/
theorem finishExchange_cases (s : State) :
    (s.phase = .draining ∧ finishExchange s = finishDrain (clearExchange s)) ∨
      (s.phase ≠ .draining ∧ s.fatalCause ≠ .none ∧ finishExchange s = enterFailed (clearExchange s)) ∨
      (s.phase ≠ .draining ∧ s.fatalCause = .none ∧
        finishExchange s = { s with phase := .idle, xkind := .none, xout := [], xlen := 0, xin := [] }) := by
  unfold finishExchange
  split
  · exact .inl ⟨by assumption, rfl⟩
  · split
    · exact .inr (.inl ⟨by assumption, by assumption, rfl⟩)
    · exact .inr (.inr ⟨by assumption, by simp_all, rfl⟩)

/-- The end of a completed exchange in a running engine without a fatal cause. -/
theorem finishExchange_idle {s : State} (hp : s.phase = .exchanging) (hf : s.fatalCause = .none) :
    finishExchange s = { s with phase := .idle, xkind := .none, xout := [], xlen := 0, xin := [] } := by
  rcases finishExchange_cases s with ⟨h, -⟩ | ⟨-, h, -⟩ | ⟨-, -, h⟩
  · rw [hp] at h; cases h
  · exact absurd hf h
  · exact h

/-- What a control reply may write: the slot, the queue behind it, the warning flag and the history
(42_control_transactions.md R228 to R231). -/
theorem ctrlReply_writes (w : Word32) (a : Txn) (s : State) :
    ∃ slot queue unreach history,
      ctrlReply w a s = { s with slot := slot, ctrlq := queue, stUnreach := unreach, history := history } := by
  unfold ctrlReply
  split
  · rw [ctrlMatch, slotNext_eq]; exact ⟨_, _, _, _, rfl⟩
  · rw [ctrlMismatch, slotNext_eq]; exact ⟨_, _, _, _, rfl⟩
  · unfold ctrlParity; split
    · rw [slotNext_eq]; exact ⟨_, _, _, _, rfl⟩
    · exact ⟨_, _, _, _, rfl⟩
  · unfold ctrlNoReply; split
    · rw [slotNext_eq]; exact ⟨_, _, _, _, rfl⟩
    · exact ⟨_, _, _, _, rfl⟩

end Sys2Proof.Machine
end

