-- ==== Sys2Proof/Laws/Rows.lean ====
section
/-! SUPPORT. The receive sides of the five footer rows: each is the case of `rx_chunk` that its marks select
(43_data_framer.md R270), and each writes only what the receive side may write. -/

namespace Sys2Proof.Machine

/-- `rx_chunk(f, P)` as 43_data_framer.md R270 writes it, over all footers at once. -/
def rxChunk (f : Footer) (payload : List Byte) (s : State) : State :=
  let sb := 4 * f.swo.toNat
  let eb := f.ebo.toNat
  if f.dv = 0#1 then
    if f.fd = 1#1 then rxDiscard true s else s
  else if f.sv = 1#1 ∧ f.ev = 1#1 ∧ sb ≤ eb then
    let s1 := rxDiscard true s
    if f.fd = 1#1 then { s1 with cntRxDrop := s1.cntRxDrop + 1#32 }
    else if s1.cfgZa = true ∧ sb ≠ 0 then s1
    else
      let s2 := rxStart (bytesFromTo payload sb eb) f.rtsa s1
      if s2.rxst = .asm then rxFinish s2 else s2
  else if f.ev = 1#1 then
    let s1 :=
      if s.rxst = .asm then
        if f.fd = 1#1 then rxDiscard true s
        else
          let s2 := rxAppend (bytesFromTo payload 0 eb) s
          if s2.rxst = .asm then rxFinish s2 else s2
      else s
    if f.sv = 1#1 ∧ s1.cfgZa = false then rxStart (bytesFromTo payload sb (s.cfgW - 1)) f.rtsa s1 else s1
  else if f.sv = 1#1 then
    let s1 := rxDiscard true s
    if f.fd = 1#1 then s1
    else if s1.cfgZa = true ∧ sb ≠ 0 then s1
    else rxStart (bytesFromTo payload sb (s.cfgW - 1)) f.rtsa s1
  else if f.fd = 1#1 then rxDiscard true s
  else if s.rxst = .asm then rxAppend (bytesFromTo payload 0 (s.cfgW - 1)) s
  else s

theorem RxWrites.cfgZa_eq {s t : State} (h : RxWrites s t) : t.cfgZa = s.cfgZa := by
  obtain ⟨_, _, _, _, _, _, rfl⟩ := h; rfl

theorem RxWrites.tsEn_eq {s t : State} (h : RxWrites s t) : t.tsEn = s.tsEn := by
  obtain ⟨_, _, _, _, _, _, rfl⟩ := h; rfl

theorem rxEnd_writes (b : FooterBits) (payload : List Byte) (s : State) : RxWrites s (rxEnd b payload s) := by
  unfold rxEnd
  split
  · split
    · exact rxDiscard_writes true s
    · exact (rxAppend_writes _ s).trans (rxFinishIfAsm_writes _)
  · exact .refl s

theorem rxNoData_writes (b : FooterBits) (s : State) : RxWrites s (rxNoData b s) := by
  unfold rxNoData
  split
  · exact rxDiscard_writes true s
  · exact .refl s

/-- Counting a dropped frame is a write of the receive side. -/
theorem rxCount_writes (s : State) : RxWrites s { s with cntRxDrop := s.cntRxDrop + 1#32 } :=
  ⟨s.rxst, s.rxbuf, s.rxts, s.cntRxDrop + 1#32, s.cntRxOvf, [], by simp⟩

theorem rxWhole_writes (b : FooterBits) (payload : List Byte) (s : State) : RxWrites s (rxWhole b payload s) := by
  have hd := rxDiscard_writes true s
  unfold rxWhole
  simp only
  split
  · exact hd.trans (rxCount_writes _)
  · split
    · exact hd
    · exact (hd.trans (rxStart_writes _ _ _)).trans (rxFinishIfAsm_writes _)

theorem rxBegin_writes (b : FooterBits) (payload : List Byte) (s : State) : RxWrites s (rxBegin b payload s) := by
  have hd := rxDiscard_writes true s
  unfold rxBegin
  simp only
  split
  · exact hd
  · split
    · exact hd
    · exact hd.trans (rxStart_writes _ _ _)

theorem rxEndThenStart_writes (b : FooterBits) (payload : List Byte) (s : State) :
    RxWrites s (rxEndThenStart b payload s) := by
  have he := rxEnd_writes b payload s
  unfold rxEndThenStart
  simp only
  split
  · exact he
  · exact he.trans (rxStart_writes _ _ _)

theorem rxContinue_writes (b : FooterBits) (payload : List Byte) (s : State) : RxWrites s (rxContinue b payload s) := by
  unfold rxContinue
  split
  · exact rxDiscard_writes true s
  · split
    · exact rxAppend_writes _ s
    · exact .refl s

theorem rxChunk_noData (sv ev : Bit) (b : FooterBits) (payload : List Byte) (s : State) :
    rxChunk (footerOf 0#1 sv ev b) payload s = rxNoData b s := by
  by_cases hf : b.fd = 1#1 <;> simp [rxChunk, footerOf, rxNoData, bitSet, hf]

theorem rxChunk_continue (b : FooterBits) (payload : List Byte) (s : State) :
    rxChunk (footerOf 1#1 0#1 0#1 b) payload s = rxContinue b payload s := by
  by_cases hf : b.fd = 1#1 <;> simp [rxChunk, footerOf, rxContinue, bitSet, hf]

theorem rxChunk_begin (b : FooterBits) (payload : List Byte) (s : State) :
    rxChunk (footerOf 1#1 1#1 0#1 b) payload s = rxBegin b payload s := by
  have hz := (rxDiscard_writes true s).cfgZa_eq
  by_cases hf : b.fd = 1#1 <;> simp [rxChunk, footerOf, rxBegin, bitSet, ineligible, startByte, hz, hf]

theorem rxChunk_end (b : FooterBits) (payload : List Byte) (s : State) :
    rxChunk (footerOf 1#1 0#1 1#1 b) payload s = rxEnd b payload s := by
  by_cases hf : b.fd = 1#1
  · simp [rxChunk, footerOf, rxEnd, bitSet, hf]
  · simp [rxChunk, footerOf, rxEnd, bitSet, endByte, hf]; rfl

theorem rxChunk_beginAndEnd (b : FooterBits) (payload : List Byte) (s : State) :
    rxChunk (footerOf 1#1 1#1 1#1 b) payload s =
      if startByte b ≤ endByte b then rxWhole b payload s else rxEndThenStart b payload s := by
  by_cases h : 4 * b.swo.toNat ≤ b.ebo.toNat
  · have hz := (rxDiscard_writes true s).cfgZa_eq
    rw [if_pos (show startByte b ≤ endByte b from h)]
    by_cases hf : b.fd = 1#1
    · simp [rxChunk, footerOf, rxWhole, bitSet, h, hf]
    · simp [rxChunk, footerOf, rxWhole, bitSet, ineligible, startByte, endByte, h, hf, hz]; rfl
  · have he : rxChunk (footerOf 1#1 1#1 1#1 b) payload s =
        if (rxEnd b payload s).cfgZa = false then
          rxStart (bytesFromTo payload (startByte b) (s.cfgW - 1)) b.rtsa (rxEnd b payload s)
        else rxEnd b payload s := by
      simp [rxChunk, footerOf, h, ← rxChunk_end, startByte]; rfl
    rw [if_neg (show ¬startByte b ≤ endByte b from h), he, (rxEnd_writes b payload s).cfgZa_eq, rxEndThenStart]
    cases s.cfgZa <;> rfl

end Sys2Proof.Machine
end

