-- ==== Sys2Proof/Laws/Step.lean ====
section
/-! SUPPORT. What a step can do, said once: if `step s` answers a next state, one of the cases of `StepCase` holds. Every
claim about all steps is a case split over it. -/

namespace Sys2Proof.Machine

/-- The port takes descriptor `d` of caller `c`, from the inputs or from its own line, and `s0` is the state without it. -/
inductive CommandTaken (s : State) (c : Caller) (d : List Word32) (s0 : State) : Prop
  | brought (rest : List Event) (hi : s.inputs = .cmd c d :: rest) (h0 : s0 = { s with inputs := rest })
  | held (rest : List Submission) (hh : s.held = ⟨c, d⟩ :: rest) (hr : holds d s = false) (h0 : s0 = { s with held := rest })

/-- The scheduler has the turn, and `s0` is the state without the event that gave it. -/
inductive TurnTaken (s s0 : State) : Prop
  | given (rest : List Event) (hi : s.inputs = .issue :: rest) (h0 : s0 = { s with inputs := rest })
  | free (hi : s.inputs = []) (h0 : s0 = s)

/-- The ways in which a step answers a next state. -/
inductive StepCase (s t : State) : Prop
  /-- an accepted descriptor runs its command -/
  | command (c : Caller) (d : List Word32) (s0 : State) (i : Instr) (ht : CommandTaken s c d s0)
      (hd : decode .command d = .ok i) (he : exec i { s0 with portCaller := c } = .next t)
  /-- an invalid descriptor is answered -/
  | invalid (c : Caller) (d : List Word32) (s0 : State) (e : DecodeError) (ht : CommandTaken s c d s0)
      (hd : decode .command d = .error e) (he : t = s0.respond c (responseOpcode d) .invalid [])
  /-- a descriptor waits behind one of the same caller -/
  | queued (c : Caller) (d : List Word32) (rest : List Event) (hi : s.inputs = .cmd c d :: rest)
      (he : t = { s with inputs := rest, held := s.held ++ [⟨c, d⟩] })
  /-- a wake pulse -/
  | wake (rest : List Event) (hi : s.inputs = .wake :: rest) (he : t = wake { s with inputs := rest })
  /-- the scheduler's turn passes -/
  | idle (s0 : State) (ht : TurnTaken s s0) (hw : scheduledHeader s0 = none) (he : t = s0)
  /-- the scheduler issues the exchange of a header -/
  | issue (s0 : State) (w : Word32) (i : Instr) (ht : TurnTaken s s0) (hw : scheduledHeader s0 = some w)
      (hd : decode .outbound [w] = .ok i) (he : exec i s0 = .next t)
  /-- an exchange completes with an inbound word -/
  | complete (bytes : List Byte) (rest : List Event) (i : Instr) (hi : s.inputs = .complete bytes :: rest)
      (hl : bytes.length = s.xout.length)
      (hd : decode (inboundPort s) [be32 (memRead bytes (inboundOffset s) 4)] = .ok i)
      (he : exec i { s with inputs := rest, xin := bytes } = .next t)
  /-- the transport faults -/
  | fault (rest : List Event) (hi : s.inputs = .fault :: rest) (hp : inFlight s = true)
      (he : t = xferFault { s with inputs := rest })

/-- The port's test of a held descriptor is the statement's `MustHold` (42_control_transactions.md R223,
45_lifecycle_status.md R361). -/
theorem holds_iff {d : List Word32} {s : State} : holds d s = true ↔ s.MustHold d := by
  have hp : phaseReject s = none ↔ s.phase = .idle ∨ s.phase = .exchanging := by
    cases h : s.phase <;> simp [phaseReject, h]
  have hf : ctrlFull s = true ↔ s.slot ≠ none ∧ s.par.ctrlqCap ≤ s.ctrlq.length := by
    simp [ctrlFull, Option.isSome_iff_ne_none]
  have other : ∀ i, ¬IsRegCommand i → decode .command d = .ok i → ¬s.MustHold d := by
    rintro i hi hd ⟨j, hj, hr, -⟩
    rw [hd] at hj; injection hj with hj; exact hi (hj ▸ hr)
  unfold holds
  cases hd : decode .command d with
  | error e => simp [State.MustHold, hd]
  | ok i =>
    cases i
    case regRead => simp [State.MustHold, hd, IsRegCommand, hp, hf, countOk, Instr.WellFormed, Instr.wf, and_assoc]
    case regWrite => simp [State.MustHold, hd, IsRegCommand, hp, hf, countOk, Instr.WellFormed, Instr.wf, and_assoc]
    all_goals
      simp only [Bool.false_eq_true, false_iff]
      exact other _ (by simp [IsRegCommand]) hd

/-- While the oldest held command must wait, the step is that of the next input. -/
theorem step_of_mustHold {s : State} {h : Submission} {rest : List Submission} (hh : s.held = h :: rest)
    (hm : s.MustHold h.words) : step s = runFetched (fetchInput s) := by
  rw [step, fetch, hh]
  exact congrArg runFetched (if_pos (holds_iff.mpr hm))

/-- When the oldest held command may be accepted, the step accepts it. -/
theorem step_of_held {s : State} {h : Submission} {rest : List Submission} (hh : s.held = h :: rest)
    (hm : ¬s.MustHold h.words) : step s = runFetched (fetchCmd h.caller h.words { s with held := rest }) := by
  rw [step, fetch, hh]
  exact congrArg runFetched (if_neg (mt holds_iff.mp hm))

/-- With no held command, or with one that must wait, the step is that of the next input. -/
theorem step_of_nextIsInput {s : State} (h : s.NextIsInput) : step s = runFetched (fetchInput s) := by
  cases hh : s.held with
  | nil => rw [step, fetch, hh]
  | cons x rest => exact step_of_mustHold hh (h x rest hh)

theorem fetchInput_cons {s : State} {e : Event} {rest : List Event} (h : s.inputs = e :: rest) :
    fetchInput s = fetchEvent e { s with inputs := rest } := by
  rw [fetchInput, h]

theorem fetchInput_nil {s : State} (h : s.inputs = []) : fetchInput s = fetchIssue s := by
  rw [fetchInput, h]

/-- A command of a caller of which the port holds none is taken at once. -/
theorem fetchEvent_cmd {s : State} {c : Caller} (h : ∀ x ∈ s.held, x.caller ≠ c) (d : List Word32) :
    fetchEvent (.cmd c d) s = fetchCmd c d s := by
  have : ¬s.held.any (fun x => x.caller == c) = true := by simpa using h
  rw [fetchEvent, if_neg this]

theorem fetchCmd_ok {s : State} {c : Caller} {d : List Word32} {i : Instr} (h : decode .command d = .ok i) :
    fetchCmd c d s = .run i { s with portCaller := c } := by
  rw [fetchCmd, h]

theorem fetchIssue_some {s : State} {w : Word32} {i : Instr} (hw : scheduledHeader s = some w)
    (h : decode .outbound [w] = .ok i) : fetchIssue s = .run i s := by
  simp only [fetchIssue, hw, h]

theorem fetchIssue_none {s : State} (hw : scheduledHeader s = none) : fetchIssue s = .done s := by
  rw [fetchIssue, hw]

theorem fetchCmd_case {s s0 t : State} {c : Caller} {d : List Word32} (ht : CommandTaken s c d s0)
    (h : runFetched (fetchCmd c d s0) = .next t) : StepCase s t := by
  unfold fetchCmd at h
  cases hd : decode .command d with
  | ok i => rw [hd] at h; exact .command c d s0 i ht hd h
  | error e => rw [hd] at h; injection h with h; exact .invalid c d s0 e ht hd h.symm

theorem fetchIssue_case {s s0 t : State} (ht : TurnTaken s s0) (h : runFetched (fetchIssue s0) = .next t) :
    StepCase s t := by
  unfold fetchIssue at h
  cases hw : scheduledHeader s0 with
  | none => rw [hw] at h; injection h with h; exact .idle s0 ht hw h.symm
  | some w =>
    simp only [hw] at h
    cases hd : decode .outbound [w] with
    | ok i => rw [hd] at h; exact .issue s0 w i ht hw hd h
    | error e => rw [hd] at h; cases h

theorem fetchInput_case {s t : State} (h : runFetched (fetchInput s) = .next t) : StepCase s t := by
  unfold fetchInput at h
  cases hi : s.inputs with
  | nil => rw [hi] at h; exact fetchIssue_case (.free hi rfl) h
  | cons e rest =>
    simp only [hi] at h
    cases e with
    | cmd c d =>
      simp only [fetchEvent] at h
      split at h
      · injection h with h; exact .queued c d rest hi h.symm
      · exact fetchCmd_case (.brought rest hi rfl) h
    | wake => injection h with h; exact .wake rest hi h.symm
    | issue => exact fetchIssue_case (.given rest hi rfl) h
    | complete bytes =>
      simp only [fetchEvent, fetchInbound] at h
      split at h
      · cases h
      · split at h
        · cases h
        · rename_i hl
          split at h
          · rename_i i hd
            exact .complete bytes rest i hi (by simpa using (not_or.mp hl).1) hd h
          · cases h
    | fault =>
      simp only [fetchEvent] at h
      split at h
      · rename_i hp; injection h with h; exact .fault rest hi hp h.symm
      · cases h

/-- What a step that answers a next state has done. -/
theorem step_next_cases {s t : State} (h : step s = .next t) : StepCase s t := by
  unfold step fetch at h
  cases hh : s.held with
  | nil => rw [hh] at h; exact fetchInput_case h
  | cons x rest =>
    simp only [hh] at h
    split at h
    · exact fetchInput_case h
    · rename_i hr
      exact fetchCmd_case (.held rest hh (by simpa using hr) rfl) h

/-! ### What the descriptor decoders accept (30_encoding.md R152) -/

theorem decodeBare_ok {i j : Instr} {w0 : Word32} {rest : List Word32} (h : decodeBare i w0 rest = .ok j) :
    w0.extractLsb' 0 24 = 0#24 ∧ rest = [] ∧ j = i := by
  unfold decodeBare at h
  split_ifs at h with h1 h2
  injection h with h
  exact ⟨not_not.mp h1, not_not.mp h2, h.symm⟩

theorem decodeInit_ok {j : Instr} {w0 : Word32} {rest : List Word32} (h : decodeInit w0 rest = .ok j) :
    w0.extractLsb' 5 19 = 0#19 ∧ w0.extractLsb' 2 1 = 0#1 ∧ rest = [] ∧
      j = .init (w0.extractLsb' 4 1) (w0.extractLsb' 3 1) (w0.extractLsb' 0 2) := by
  unfold decodeInit at h
  split_ifs at h with h1 h2
  injection h with h
  exact ⟨not_not.mp (not_or.mp h1).1, not_not.mp (not_or.mp h1).2, not_not.mp h2, h.symm⟩

theorem decodeRegRead_ok {j : Instr} {w0 : Word32} {rest : List Word32} (h : decodeRegRead w0 rest = .ok j) :
    ∃ w1, rest = [w1] ∧ w0.extractLsb' 20 3 = 0#3 ∧ w1.extractLsb' 8 24 = 0#24 ∧
      j = .regRead (w0.extractLsb' 23 1) (w0.extractLsb' 16 4) (w0.extractLsb' 0 16) (w1.extractLsb' 0 8) := by
  unfold decodeRegRead at h
  cases rest with
  | nil => cases h
  | cons w1 vals =>
    simp only at h
    split_ifs at h with h1 h2
    injection h with h
    exact ⟨w1, by rw [not_not.mp h2], not_not.mp (not_or.mp h1).1, not_not.mp (not_or.mp h1).2, h.symm⟩

theorem decodeRegWrite_ok {j : Instr} {w0 : Word32} {rest : List Word32} (h : decodeRegWrite w0 rest = .ok j) :
    ∃ w1 vals, rest = w1 :: vals ∧ w0.extractLsb' 20 3 = 0#3 ∧ w1.extractLsb' 8 24 = 0#24 ∧
      vals.length = (w1.extractLsb' 0 8).toNat ∧
      j = .regWrite (w0.extractLsb' 23 1) (w0.extractLsb' 16 4) (w0.extractLsb' 0 16) vals := by
  unfold decodeRegWrite at h
  cases rest with
  | nil => cases h
  | cons w1 vals =>
    simp only at h
    split_ifs at h with h1 h2
    injection h with h
    exact ⟨w1, vals, rfl, not_not.mp (not_or.mp h1).1, not_not.mp (not_or.mp h1).2, not_not.mp h2, h.symm⟩

theorem decodeTxEnqueue_ok {j : Instr} {w0 : Word32} {rest : List Word32} (h : decodeTxEnqueue w0 rest = .ok j) :
    ∃ w1 ws, rest = w1 :: ws ∧ w0.extractLsb' 0 24 = 0#24 ∧ w1.extractLsb' 16 16 = 0#16 ∧
      ws.length = wordsFor (w1.extractLsb' 0 16).toNat ∧ j = .txEnqueue (unpack (w1.extractLsb' 0 16).toNat ws) := by
  unfold decodeTxEnqueue at h
  cases rest with
  | nil => cases h
  | cons w1 ws =>
    simp only at h
    split_ifs at h with h1 h2
    injection h with h
    exact ⟨w1, ws, rfl, not_not.mp (not_or.mp h1).1, not_not.mp (not_or.mp h1).2, not_not.mp h2, h.symm⟩

theorem decodeStatusClear_ok {j : Instr} {w0 : Word32} {rest : List Word32} (h : decodeStatusClear w0 rest = .ok j) :
    w0.extractLsb' 16 8 = 0#8 ∧ w0.extractLsb' 0 16 &&& reservedMask = 0#16 ∧ rest = [] ∧
      j = .statusClear (w0.extractLsb' 0 16) := by
  unfold decodeStatusClear at h
  split_ifs at h with h1 h2 h3
  injection h with h
  exact ⟨not_not.mp h1, not_not.mp h2, not_not.mp h3, h.symm⟩

/-- A decoded descriptor belongs to the command port. -/
theorem decode_command_port {d : List Word32} {i : Instr} (h : decode .command d = .ok i) : i.port = .command := by
  simp only [decode, decodeDescriptor] at h
  split at h
  · cases h
  · split_ifs at h
    · obtain ⟨-, -, -, rfl⟩ := decodeInit_ok h; rfl
    · obtain ⟨-, -, rfl⟩ := decodeBare_ok h; rfl
    · obtain ⟨_, -, -, -, rfl⟩ := decodeRegRead_ok h; rfl
    · obtain ⟨_, _, -, -, -, -, rfl⟩ := decodeRegWrite_ok h; rfl
    · obtain ⟨_, _, -, -, -, -, rfl⟩ := decodeTxEnqueue_ok h; rfl
    · obtain ⟨-, -, rfl⟩ := decodeBare_ok h; rfl
    · obtain ⟨-, -, rfl⟩ := decodeBare_ok h; rfl
    · obtain ⟨-, -, rfl⟩ := decodeBare_ok h; rfl
    · obtain ⟨-, -, rfl⟩ := decodeBare_ok h; rfl
    · obtain ⟨-, -, -, rfl⟩ := decodeStatusClear_ok h; rfl

/-- A decoded wire word belongs to the port where it stands. -/
theorem decode_outbound_port {w : Word32} {i : Instr} (h : decode .outbound [w] = .ok i) : i.port = .outbound := by
  simp only [decode, decodeOutbound] at h
  split_ifs at h <;> cases h <;> rfl

theorem decode_inbound_port {p : Port} {w : Word32} {i : Instr} (hp : p = .ctrlIn ∨ p = .dataIn)
    (h : decode p [w] = .ok i) : i.port = p := by
  rcases hp with rfl | rfl
  · injection h with h; subst h; unfold decodeCtrlIn; repeat' split
    all_goals rfl
  · injection h with h; subst h; unfold decodeDataIn; repeat' split
    all_goals rfl

end Sys2Proof.Machine
end

