-- ==== Sys2Proof/Laws/Exec.lean ====
section
/-! SUPPORT. What `exec` does with each kind of wire word, said once: an outbound word answers a next state exactly where the
scheduler sends it, every footer row is `data_complete` with `rx_chunk`, and every echo word is `ctrl_complete`. -/

namespace Sys2Proof.Machine

theorem scheduled_iff {k : XKind} {w : Word32} {s : State} :
    scheduled k w s = true ↔ select s = k ∧ scheduledHeader s = some w := by
  simp [scheduled]

/-- A scheduled header has an idle engine with work. -/
theorem scheduledHeader_some {s : State} {w : Word32} (h : scheduledHeader s = some w) :
    s.phase = .idle ∧ hasWork s = true := by
  unfold scheduledHeader at h
  split at h
  · rename_i hc; simpa [canIssue] using hc
  · cases h

/-- An idle engine with work always has a header to send, but for a data chunk without a frame, which `select` excludes. -/
theorem scheduledHeader_none_iff {s : State} : scheduledHeader s = none ↔ s.phase ≠ .idle ∨ hasWork s = false := by
  unfold scheduledHeader
  by_cases hc : canIssue s = true
  · have hc' := hc
    simp only [canIssue, Bool.and_eq_true, beq_iff_eq] at hc'
    rw [if_pos hc]
    simp only [hc'.1, hc'.2, ne_eq, not_true_eq_false, false_or, Bool.true_eq_false, iff_false]
    unfold select
    split_ifs with h1 h2
    · obtain ⟨t, ht⟩ := Option.isSome_iff_exists.mp h1
      simp [ht]
    · have := h2.1
      unfold txAvail at this
      cases hcur : s.txcur <;> cases hq : s.txq <;> simp_all [loadTxcur]
    · simp
  · rw [if_neg hc]
    simp only [canIssue, Bool.and_eq_true, beq_iff_eq, not_and_or] at hc
    simpa using hc

theorem execDataPoll_next {p : Bit} {s t : State} :
    execDataPoll p s = .next t ↔ scheduled .poll (pollWord p) s = true ∧ t = issuePoll s := by
  unfold execDataPoll
  split
  · rename_i h
    constructor
    · intro e; injection e with e; exact ⟨h, e.symm⟩
    · rintro ⟨-, rfl⟩; rfl
  · rename_i h
    constructor
    · intro e; cases e
    · rintro ⟨h', -⟩; exact absurd h' h

theorem execDataHdr_next {sv ev : Bit} {ebo : BitVec 6} {p : Bit} {s t : State} :
    execDataHdr sv ev ebo p s = .next t ↔
      ∃ c q, loadTxcur s = some (c, q) ∧ scheduled .data (dataWord sv ev ebo p) s = true ∧ t = issueData c q s := by
  unfold execDataHdr
  cases hl : loadTxcur s with
  | none =>
    constructor
    · intro e; cases e
    · rintro ⟨_, _, h, -⟩; cases h
  | some q =>
    simp only
    split
    · rename_i h
      constructor
      · intro e; injection e with e; exact ⟨q.1, q.2, rfl, h, e.symm⟩
      · rintro ⟨c, r, hq, -, rfl⟩; cases hq; rfl
    · rename_i h
      constructor
      · intro e; cases e
      · rintro ⟨_, _, -, h', -⟩; exact absurd h' h

theorem issueCtrl_next {w : Word32} {s t : State} :
    issueCtrl w s = .next t ↔
      ∃ a, s.slot = some a ∧ scheduled .ctrl w s = true ∧ t = startExchange .ctrl (ctrlOut a) 0 s := by
  unfold issueCtrl
  cases hs : s.slot with
  | none =>
    constructor
    · intro e; cases e
    · rintro ⟨_, h, -⟩; cases h
  | some a =>
    simp only
    split
    · rename_i h
      constructor
      · intro e; injection e with e; exact ⟨a, rfl, h, e.symm⟩
      · rintro ⟨b, hb, -, rfl⟩; cases hb; rfl
    · rename_i h
      constructor
      · intro e; cases e
      · rintro ⟨_, -, h', -⟩; exact absurd h' h

/-- Every footer row is `data_complete` with `rx_chunk` (43_data_framer.md R270, 44_transfer_scheduler.md R319). -/
theorem exec_footerRow {i : Instr} {f : Footer} {p : Bit} (h : footerRow i = some (f, p)) (s : State) :
    exec i s = completeData (footerWord f p) (rxChunk f) s := by
  cases i <;> cases h
  case ftrNodata sv ev b =>
    exact congrArg (fun r => completeData _ r s) (funext fun P => funext fun u => (rxChunk_noData sv ev b P u).symm)
  case ftrCont b =>
    exact congrArg (fun r => completeData _ r s) (funext fun P => funext fun u => (rxChunk_continue b P u).symm)
  case ftrSof b =>
    exact congrArg (fun r => completeData _ r s) (funext fun P => funext fun u => (rxChunk_begin b P u).symm)
  case ftrEof b =>
    exact congrArg (fun r => completeData _ r s) (funext fun P => funext fun u => (rxChunk_end b P u).symm)
  case ftrSofEof b =>
    refine congrArg (fun r => completeData (footerWord (footerOf 1#1 1#1 1#1 b) b.p) r s)
      (a₁ := fun payload => if startByte b ≤ endByte b then rxWhole b payload else rxEndThenStart b payload)
      (funext fun P => funext fun u => ?_)
    rw [rxChunk_beginAndEnd]
    by_cases hb : startByte b ≤ endByte b <;> simp [hb]

/-- What a footer row does where its footer arrives: the valid or the invalid case of `data_complete`, the stall check, and the
end of the exchange (44_transfer_scheduler.md R318, R319). -/
theorem exec_footer_arrives {i : Instr} {f : Footer} {p : Bit} {s : State} (h : footerRow i = some (f, p))
    (ha : s.FooterArrives (footerWord f p)) :
    exec i s = .next (finishExchange (stallCheck
      (if parityOk s.par.paritySense (footerWord f p) = true ∧ f.malformed s.cfgW = false then
        validFooter f (rxChunk f (memRead s.xin 0 s.cfgW)) (s.emit (.xferIn s.xin))
      else invalidFooter (s.emit (.xferIn s.xin))))) := by
  rw [exec_footerRow h]
  refine completeData_next.mpr ⟨ha, ?_⟩
  rw [decodeFooter_toBE32, footerFields_footerWord]
  congr 1
  by_cases h1 : parityOk s.par.paritySense (footerWord f p) = false
  · rw [if_pos h1, if_neg (by simp [h1])]; rfl
  · rw [if_neg h1]
    by_cases h2 : f.malformed s.cfgW = true
    · rw [if_pos h2, if_neg (by simp [h2])]; rfl
    · rw [if_neg h2, if_pos ⟨by simpa using h1, by simpa using h2⟩]; rfl

/-- Every footer row belongs to the data port, and every instruction of the data port is a footer row. -/
theorem footerRow_of_port {i : Instr} (h : i.port = .dataIn) : ∃ f p, footerRow i = some (f, p) := by
  cases i <;> first | exact ⟨_, _, rfl⟩ | cases h

/-- Every echo word is `ctrl_complete` with its word (44_transfer_scheduler.md R320). -/
theorem exec_ctrlIn {i : Instr} (hp : i.port = .ctrlIn) (s : State) :
    exec i s = completeCtrl (wireWord i) (ctrlReply (wireWord i)) s := by
  cases i <;> first | rfl | cases hp

theorem rxChunk_writes (f : Footer) (payload : List Byte) (s : State) : RxWrites s (rxChunk f payload s) := by
  have hf : ∃ b, f = footerOf f.dv f.sv f.ev b :=
    ⟨⟨f.exst, f.hdrb, f.sync, f.rca, f.vs, f.swo, f.fd, f.ebo, f.rtsa, f.rtsp, f.txc, 0#1⟩, rfl⟩
  obtain ⟨b, hb⟩ := hf
  have bit : ∀ x : Bit, x = 0#1 ∨ x = 1#1 := by decide
  rw [hb]
  rcases bit f.dv with hd | hd
  · rw [hd, rxChunk_noData]; exact rxNoData_writes b s
  · rcases bit f.sv with hs | hs <;> rcases bit f.ev with he | he <;> rw [hd, hs, he]
    · rw [rxChunk_continue]; exact rxContinue_writes b payload s
    · rw [rxChunk_end]; exact rxEnd_writes b payload s
    · rw [rxChunk_begin]; exact rxBegin_writes b payload s
    · rw [rxChunk_beginAndEnd]
      split
      · exact rxWhole_writes b payload s
      · exact rxEndThenStart_writes b payload s

end Sys2Proof.Machine
end

