-- ==== Sys2Proof/Laws/Completion.lean ====
section
/-! SUPPORT. What a completed exchange leaves, said once in the terms of Safety.lean: the transmit side, a valid and an
invalid footer, and the end of the exchange with and without the link stall check. The statements about inbound words hold
while exchanging and while draining, and these lemmas say so. -/

namespace Sys2Proof.Machine

/-- `tx_commit` (43_data_framer.md R263). -/
theorem txCommit_eq (s : State) : txCommit s = s.chunkCommitted := by
  unfold txCommit State.chunkCommitted
  cases s.txcur <;> rfl

/-- `tx_reject` (43_data_framer.md R264). -/
theorem txReject_eq (s : State) : txReject s = s.chunkRejected := by
  unfold txReject State.chunkRejected
  cases s.txcur <;> rfl

/-- The transmit side of a valid footer (44_transfer_scheduler.md R319 step 4). -/
theorem txSide_eq (f : Footer) (s : State) :
    txSide f s = if s.xkind = .data then (if f.hdrb = 1#1 then s.chunkRejected else s.chunkCommitted) else s := by
  simp only [txSide, bitSet, beq_iff_eq, txReject_eq, txCommit_eq]

/-- A bit that is not 1 is 0. -/
theorem bit_ne_one {b : Bit} : b ≠ 1#1 ↔ b = 0#1 := by revert b; decide

/-- A valid footer whose sync flag does not fall: steps 1 to 4, then the receive side (44_transfer_scheduler.md R319). -/
theorem validFooter_held (d v e : Bit) (b : FooterBits) (rx : State → State) {s : State}
    (hs : ¬(s.syncSeen = true ∧ b.sync = 0#1)) :
    validFooter (footerOf d v e b) rx s.received = rx (s.afterFooter b) := by
  have hf : ∀ u : State, u.syncSeen = s.syncSeen → ¬syncFalls (footerOf d v e b) u = true := by
    intro u hu h
    simp only [syncFalls, bitSet, footerOf, hu, Bool.and_eq_true, Bool.not_eq_true', beq_eq_false_iff_ne] at h
    exact hs ⟨h.1, bit_ne_one.mp h.2⟩
  rw [validFooter, if_neg (hf s.received rfl), syncEdge, if_neg (hf _ (by rfl))]
  exact congrArg rx (txSide_eq (footerOf d v e b) _)

/-- A valid footer whose sync flag falls (41_credit_tracker.md R211). -/
theorem validFooter_falls (f : Footer) (rx : State → State) {s : State} (h1 : s.syncSeen = true) (h2 : f.sync = 0#1) :
    validFooter f rx s.received = s.afterSyncFall f := by
  have hf : ∀ u : State, u.syncSeen = s.syncSeen → syncFalls f u = true := by
    intro u hu; simp [syncFalls, bitSet, h2, hu, h1]
  rw [validFooter, if_pos (hf s.received rfl), syncEdge, if_pos (hf _ (by rfl)), rxDiscard_true, txRestart_eq]
  unfold State.afterSyncFall State.dropIfAsm
  by_cases hr : s.rxst = .asm <;>
    simp [hr, h2, bitSet, State.dropped, creditReplace, latchFooterFlags, State.received]

/-- An invalid footer (41_credit_tracker.md R202, 43_data_framer.md R266, R281). -/
theorem invalidFooter_eq (s : State) : invalidFooter s.received = s.afterInvalidFooter := by
  unfold invalidFooter State.afterInvalidFooter
  rw [rxDiscard_true, txCommit_eq]
  rfl

/-- The end of an exchange without a fatal cause, in a running or a draining engine (44_transfer_scheduler.md R318). -/
theorem finishExchange_eq {s : State} (hf : s.fatalCause = .none) : finishExchange s = s.ended := by
  unfold finishExchange State.ended
  split
  · rw [finishDrain_eq]; rfl
  · rw [if_neg (by simp [hf])]; rfl

/-- The end of a data or poll exchange: the link stall check, then the end (41_credit_tracker.md R209,
44_transfer_scheduler.md R318, R319 step 6). -/
theorem finishExchange_stallCheck {s : State} (hf : s.fatalCause = .none) : finishExchange (stallCheck s) = s.settled := by
  unfold stallCheck State.settled
  by_cases h : s.Stalled
  · rw [if_pos ⟨h.1, h.2.1, h.2.2, hf⟩, if_pos h]
    by_cases hp : s.phase = .draining
    · rw [if_pos hp, State.ended, if_pos hp, finishExchange, if_pos hp, finishDrain_eq]; rfl
    · rw [if_neg hp, finishExchange, if_neg hp, if_pos (by simp), enterFailed_eq]; rfl
  · rw [if_neg (fun g => h ⟨g.1, g.2.1, g.2.2.1⟩), if_neg h, finishExchange_eq hf]

/-- What steps 1 to 4 of a footer write: the credit, the flags, the frame in flight, its abort count and the history. -/
theorem afterFooter_writes (s : State) (b : FooterBits) :
    ∃ txc rca polls exst hdrb sync txcur abort history,
      s.afterFooter b =
        { s with
          txc := txc, rca := rca, stallPolls := polls, stExst := exst, stHdrb := hdrb, syncSeen := sync, txcur := txcur
          cntTxAbort := abort, history := history } := by
  unfold State.afterFooter State.chunkRejected State.chunkCommitted
  simp only
  repeat' split
  all_goals exact ⟨_, _, _, _, _, _, _, _, _, rfl⟩

@[simp] theorem afterFooter_fatalCause (s : State) (b : FooterBits) : (s.afterFooter b).fatalCause = s.fatalCause := by
  obtain ⟨_, _, _, _, _, _, _, _, _, h⟩ := afterFooter_writes s b; rw [h]
@[simp] theorem afterFooter_par (s : State) (b : FooterBits) : (s.afterFooter b).par = s.par := by
  obtain ⟨_, _, _, _, _, _, _, _, _, h⟩ := afterFooter_writes s b; rw [h]
@[simp] theorem afterFooter_cfgW (s : State) (b : FooterBits) : (s.afterFooter b).cfgW = s.cfgW := by
  obtain ⟨_, _, _, _, _, _, _, _, _, h⟩ := afterFooter_writes s b; rw [h]
@[simp] theorem afterFooter_cfgZa (s : State) (b : FooterBits) : (s.afterFooter b).cfgZa = s.cfgZa := by
  obtain ⟨_, _, _, _, _, _, _, _, _, h⟩ := afterFooter_writes s b; rw [h]
@[simp] theorem afterFooter_tsEn (s : State) (b : FooterBits) : (s.afterFooter b).tsEn = s.tsEn := by
  obtain ⟨_, _, _, _, _, _, _, _, _, h⟩ := afterFooter_writes s b; rw [h]
@[simp] theorem afterFooter_rxst (s : State) (b : FooterBits) : (s.afterFooter b).rxst = s.rxst := by
  obtain ⟨_, _, _, _, _, _, _, _, _, h⟩ := afterFooter_writes s b; rw [h]
@[simp] theorem afterFooter_rxbuf (s : State) (b : FooterBits) : (s.afterFooter b).rxbuf = s.rxbuf := by
  obtain ⟨_, _, _, _, _, _, _, _, _, h⟩ := afterFooter_writes s b; rw [h]
@[simp] theorem afterFooter_rxts (s : State) (b : FooterBits) : (s.afterFooter b).rxts = s.rxts := by
  obtain ⟨_, _, _, _, _, _, _, _, _, h⟩ := afterFooter_writes s b; rw [h]
@[simp] theorem afterFooter_rxq (s : State) (b : FooterBits) : (s.afterFooter b).rxq = s.rxq := by
  obtain ⟨_, _, _, _, _, _, _, _, _, h⟩ := afterFooter_writes s b; rw [h]

/-- Discarding the frame in progress writes the receive state and its drop count alone. -/
theorem dropIfAsm_writes (s : State) : RxWrites s s.dropIfAsm := rxDiscard_true s ▸ rxDiscard_writes true s

/-- The receive side changes no fatal cause. -/
theorem RxWrites.fatalCause_eq {s t : State} (h : RxWrites s t) : t.fatalCause = s.fatalCause := by
  obtain ⟨_, _, _, _, _, _, rfl⟩ := h; rfl

/-- What a footer row does where its footer arrives, is valid and its sync flag does not fall: the transmit side, the receive
side of the row, and the end of the exchange with the stall check (44_transfer_scheduler.md R318, R319). -/
theorem exec_footer_held {i : Instr} {d v e : Bit} {b : FooterBits} {s : State}
    (h : footerRow i = some (footerOf d v e b, b.p)) (ha : s.FooterArrives (footerWord (footerOf d v e b) b.p))
    (hv : ValidFooter s (footerOf d v e b) b.p) (hs : SyncHeld s b) :
    exec i s = .next (State.settled (rxChunk (footerOf d v e b) (s.xin.take s.cfgW) (s.afterFooter b))) := by
  have hf : (rxChunk (footerOf d v e b) (s.xin.take s.cfgW) (s.afterFooter b)).fatalCause = .none := by
    rw [(rxChunk_writes _ _ _).fatalCause_eq, afterFooter_fatalCause]; exact hs.1
  rw [exec_footer_arrives h ha, if_pos ⟨hv.1, hv.2⟩, ← finishExchange_stallCheck hf, ← validFooter_held d v e b (rxChunk _ _) hs.2]
  rfl

end Sys2Proof.Machine
end

