-- ==== Sys2Proof/Laws/Invariant.lean ====
section
/-! SUPPORT. A test of the invariant on one concrete state: a Bool that implies it, so that a witness is a closed fact. -/

namespace Sys2Proof.Machine

/-- The test of `Txn.Made`. -/
def Txn.madeCheck (par : Params) (t : Txn) : Bool :=
  decide (1 ≤ t.n) && decide (t.n ≤ Config.maxRegs) && t.wvals.length == (if t.op = .wr then t.n else 0) &&
    t.hdr == encodeCtrlHeader par.paritySense t.op.wnr t.aid t.mms t.addr t.n

theorem Txn.made_of_check {par : Params} {t : Txn} (h : t.madeCheck par = true) : t.Made par := by
  simp only [Txn.madeCheck, Bool.and_eq_true, decide_eq_true_eq, beq_iff_eq] at h
  exact ⟨⟨h.1.1.1, h.1.1.2⟩, h.1.2, h.2⟩

/-- The test of `State.ExchangeInv`. -/
def State.exchangeCheck (s : State) : Bool :=
  match s.xkind with
  | .none => s.xout == [] && s.xlen == 0
  | .ctrl => s.slot.any (fun t => s.xout == ctrlOut t) && s.xlen == 0
  | .data => s.txcur.any (fun c => s.xlen == chunkLen s.cfgW c &&
      s.xout == toBE32 (chunkHeader s.par.paritySense s.cfgW c) ++ chunkPayload s.cfgW c)
  | .poll => s.xout == toBE32 (pollHeader s.par.paritySense) ++ zeros s.cfgW && s.xlen == 0

theorem State.exchange_of_check {s : State} (h : s.exchangeCheck = true) : s.ExchangeInv := by
  unfold State.exchangeCheck at h
  constructor <;> intro hk <;> simp only [hk, Bool.and_eq_true, beq_iff_eq, Option.any_eq_true] at h
  · exact h
  · obtain ⟨⟨t, ht, hx⟩, hl⟩ := h
    exact ⟨t, ht, hx, hl⟩
  · exact h
  · exact h

/-- The test of `State.Inv`. -/
def State.invCheck (s : State) : Bool :=
  decide s.par.Legal && s.cfgW == widthOfCode s.cfgWcode && (s.slot.isSome || s.ctrlq == []) &&
    decide (s.ctrlq.length ≤ s.par.ctrlqCap ∧ s.txq.length ≤ s.par.txqCap ∧ s.rxq.length ≤ s.par.rxqCap) &&
    decide (s.xkind ≠ .none ↔ s.phase = .exchanging ∨ s.phase = .draining) && s.exchangeCheck &&
    (pendingTxns s).all (fun t => t.madeCheck s.par) &&
    s.slot.all (fun t => decide (t.pfail ≤ s.par.parityRetryMax ∧ t.nrep < s.par.ctrlTimeoutIters)) &&
    s.ctrlq.all (fun t => decide (t.pfail = 0 ∧ t.nrep = 0)) &&
    s.txcur.all (fun c => decide (c.cur < c.frame.length ∧ c.frame.length ≤ s.par.txMaxFrame ∧
      c.hret ≤ s.par.parityRetryMax)) &&
    s.txq.all (fun f => decide (1 ≤ f.length ∧ f.length ≤ s.par.txMaxFrame)) &&
    decide (s.rxst = .asm → 1 ≤ s.rxbuf.length ∧ s.rxbuf.length ≤ s.par.rxMaxFrame) &&
    decide (s.rxst = .idle → s.rxbuf = [] ∧ s.rxts = false) &&
    s.rxq.all (fun f => decide (1 ≤ f.bytes.length ∧ f.bytes.length ≤ s.par.rxMaxFrame)) &&
    decide (s.phase = .failed → s.fatalCause ≠ .none ∧ s.slot = none) &&
    decide (s.phase = .idle ∨ s.phase = .exchanging ∨ s.phase = .draining → s.fatalCause = .none) &&
    decide (s.phase = .stopped → s.slot = none ∧ s.txcur = none ∧ s.txq = [] ∧ s.rxst = .idle) &&
    decide (s.shutCaller.isSome = true ↔ s.phase = .draining) && s.xin == []

theorem State.inv_of_check {s : State} (h : s.invCheck = true) : s.Inv := by
  simp only [State.invCheck, Bool.and_eq_true, decide_eq_true_eq, beq_iff_eq, Bool.or_eq_true, List.all_eq_true,
    Option.all_eq_true] at h
  obtain ⟨⟨⟨⟨⟨⟨⟨⟨⟨⟨⟨⟨⟨⟨⟨⟨⟨⟨h1, h2⟩, h3⟩, h4⟩, h5⟩, h6⟩, h7⟩, h8⟩, h9⟩, h10⟩, h11⟩, h12⟩, h13⟩, h14⟩, h15⟩, h16⟩, h17⟩, h18⟩, h19⟩ := h
  exact
    { legal := h1, width := h2, slotFirst := fun e => h3.resolve_left (by simp [e]), capacities := h4, exchange := h5
      outbound := State.exchange_of_check h6, txns := fun t ht => Txn.made_of_check (h7 t ht), slotBounds := h8
      waiting := h9, txcurBounds := h10, txqFrames := h11, rxAssembly := h12, rxIdle := h13, rxqFrames := h14
      failed := h15, running := h16, stopped := h17, shutdown := h18, noInbound := h19 }

end Sys2Proof.Machine
end

