-- ==== Sys2Proof/Laws/PerInstr.lean ====
section
/-! SUPPORT. Statements about every instruction, one lemma for each constructor. `RowMatch`: the first word of a well-formed
instruction has, at the bits that its row of spec/opcode_table.json fixes, the values the row gives them. -/

namespace Sys2Proof.Laws

open Sys2Proof.Machine

/-- The fixed bits of an instruction's row, as (lowest bit, width, value), split where the layouts of 30_encoding.md split
them. `DATA_POLL`'s row gives the word under `PARITY_SENSE = ODD`; its parity bit is left out here (30_encoding.md R126). -/
def fixedFields : Instr → List (Nat × Nat × Nat)
  | .init _ _ _ => [(24, 8, 0x01), (5, 19, 0), (2, 1, 0)]
  | .shutdown => [(0, 32, 0x02000000)]
  | .regRead _ _ _ _ => [(24, 8, 0x10), (20, 3, 0)]
  | .regWrite _ _ _ _ => [(24, 8, 0x11), (20, 3, 0)]
  | .txEnqueue _ => [(0, 32, 0x20000000)]
  | .rxPoll => [(0, 32, 0x21000000)]
  | .tsEnable => [(0, 32, 0x30000000)]
  | .tsDisable => [(0, 32, 0x31000000)]
  | .statusRead => [(0, 32, 0x40000000)]
  | .statusClear _ => [(24, 8, 0x41), (16, 8, 0), (12, 4, 0), (5, 3, 0)]
  | .ctrlHdrRd _ _ _ _ _ => [(31, 1, 0), (30, 1, 0), (29, 1, 0)]
  | .ctrlHdrWr _ _ _ _ _ => [(31, 1, 0), (30, 1, 0), (29, 1, 1)]
  | .ctrlEcho _ _ _ _ _ _ _ _ => []
  | .ctrlEchoNoreply0 => [(0, 32, 0)]
  | .ctrlEchoNoreply1 => [(0, 32, 0xFFFFFFFF)]
  | .dataPoll _ => [(31, 1, 1), (1, 30, 0)]
  | .dataHdr _ _ _ _ => [(21, 11, 0x401), (16, 4, 0), (15, 1, 0), (6, 2, 0), (1, 5, 0)]
  | .ftrNodata _ _ _ => [(21, 1, 0)]
  | .ftrCont _ => [(21, 1, 1), (20, 1, 0), (14, 1, 0)]
  | .ftrSof _ => [(21, 1, 1), (20, 1, 1), (14, 1, 0)]
  | .ftrEof _ => [(21, 1, 1), (20, 1, 0), (14, 1, 1)]
  | .ftrSofEof _ => [(21, 1, 1), (20, 1, 1), (14, 1, 1)]

/-- The first word of `i`, when `i` is well-formed, holds the fixed bits of its row. -/
def RowMatch.Statement (i : Instr) : Prop :=
  i.WellFormed → ∀ f ∈ fixedFields i, ((wireWord i).extractLsb' f.1 f.2.1).toNat = f.2.2

/-- Reading a field above the last appended field. -/
theorem extract_above {v w s l : Nat} (a : BitVec v) (b : BitVec w) (h : w ≤ s) :
    (a ++ b).extractLsb' s l = a.extractLsb' (s - w) l := BitVec.extractLsb'_append_eq_of_le h

/-- Reading the last appended field, or a part of it. -/
theorem extract_within {v w s l : Nat} (a : BitVec v) (b : BitVec w) (h : s + l ≤ w) :
    (a ++ b).extractLsb' s l = b.extractLsb' s l := BitVec.extractLsb'_append_eq_of_add_le h

/-- The row bits of a footer word are its `DV`, `SV` and `EV`. -/
theorem footerWord_marks (f : Footer) (p : Bit) :
    (footerWord f p).extractLsb' 21 1 = f.dv ∧ (footerWord f p).extractLsb' 20 1 = f.sv ∧
      (footerWord f p).extractLsb' 14 1 = f.ev := by
  have h := footerFields_footerWord f p
  exact ⟨congrArg Footer.dv h, congrArg Footer.sv h, congrArg Footer.ev h⟩

/-- The row bits of a control word are its `DNC`, `HDRB` and `WNR`. -/
theorem ctrlWord_marks (dnc hdrb wnr aid : Bit) (mms : BitVec 4) (addr : BitVec 16) (len : BitVec 7) (p : Bit) :
    (ctrlWord dnc hdrb wnr aid mms addr len p).extractLsb' 31 1 = dnc ∧
      (ctrlWord dnc hdrb wnr aid mms addr len p).extractLsb' 30 1 = hdrb ∧
      (ctrlWord dnc hdrb wnr aid mms addr len p).extractLsb' 29 1 = wnr := by
  have h := echoFields_ctrlWord dnc hdrb wnr aid mms addr len p
  exact ⟨congrArg Echo.dnc h, congrArg Echo.hdrb h, congrArg Echo.wnr h⟩

theorem RowMatch.init (tscap za : Bit) (wcode : BitVec 2) : RowMatch.Statement (.init tscap za wcode) := by
  intro _ f hf
  simp only [fixedFields, List.mem_cons, List.not_mem_nil, or_false] at hf
  have h : ∀ s l, 2 ≤ s → (wireWord (.init tscap za wcode)).extractLsb' s l =
      (opcInit ++ 0#19 ++ tscap ++ za ++ 0#1).extractLsb' (s - 2) l := fun s l hs => extract_above _ wcode hs
  rcases hf with rfl | rfl | rfl <;>
    simp (disch := decide) only [h, extract_above, extract_within, Nat.reduceSub, BitVec.extractLsb'_eq_self] <;> rfl

theorem RowMatch.shutdown : RowMatch.Statement .shutdown := by
  unfold RowMatch.Statement; decide

theorem RowMatch.regRead (aid : Bit) (mms : BitVec 4) (addr : BitVec 16) (count : BitVec 8) :
    RowMatch.Statement (.regRead aid mms addr count) := by
  intro _ f hf
  simp only [fixedFields, List.mem_cons, List.not_mem_nil, or_false] at hf
  have h : ∀ s l, 16 ≤ s → (wireWord (.regRead aid mms addr count)).extractLsb' s l =
      (opcRegRead ++ aid ++ 0#3 ++ mms).extractLsb' (s - 16) l := fun s l hs => extract_above _ addr hs
  rcases hf with rfl | rfl <;>
    simp (disch := decide) only [h, extract_above, extract_within, Nat.reduceSub, BitVec.extractLsb'_eq_self] <;> rfl

theorem RowMatch.regWrite (aid : Bit) (mms : BitVec 4) (addr : BitVec 16) (vals : List Word32) :
    RowMatch.Statement (.regWrite aid mms addr vals) := by
  intro _ f hf
  simp only [fixedFields, List.mem_cons, List.not_mem_nil, or_false] at hf
  have h : ∀ s l, 16 ≤ s → (wireWord (.regWrite aid mms addr vals)).extractLsb' s l =
      (opcRegWrite ++ aid ++ 0#3 ++ mms).extractLsb' (s - 16) l := fun s l hs => extract_above _ addr hs
  rcases hf with rfl | rfl <;>
    simp (disch := decide) only [h, extract_above, extract_within, Nat.reduceSub, BitVec.extractLsb'_eq_self] <;> rfl

theorem RowMatch.txEnqueue (frame : List Byte) : RowMatch.Statement (.txEnqueue frame) := by
  intro _ f hf
  simp only [fixedFields, List.mem_cons, List.not_mem_nil, or_false] at hf
  subst hf; rfl

theorem RowMatch.rxPoll : RowMatch.Statement .rxPoll := by unfold RowMatch.Statement; decide

theorem RowMatch.tsEnable : RowMatch.Statement .tsEnable := by unfold RowMatch.Statement; decide

theorem RowMatch.tsDisable : RowMatch.Statement .tsDisable := by unfold RowMatch.Statement; decide

theorem RowMatch.statusRead : RowMatch.Statement .statusRead := by unfold RowMatch.Statement; decide

theorem RowMatch.statusClear (mask : BitVec 16) : RowMatch.Statement (.statusClear mask) := by
  intro hw f hf
  have hm : mask &&& reservedMask = 0#16 := by simpa [Instr.WellFormed, Instr.wf] using hw
  have high : mask.extractLsb' 12 4 = 0#4 := by
    have := congrArg (fun x => x.extractLsb' 12 4) hm
    rw [BitVec.extractLsb'_and, show reservedMask.extractLsb' 12 4 = BitVec.allOnes 4 from rfl, BitVec.and_allOnes] at this
    exact this
  have low : mask.extractLsb' 5 3 = 0#3 := by
    have := congrArg (fun x => x.extractLsb' 5 3) hm
    rw [BitVec.extractLsb'_and, show reservedMask.extractLsb' 5 3 = BitVec.allOnes 3 from rfl, BitVec.and_allOnes] at this
    exact this
  have h : ∀ s l, 16 ≤ s → (wireWord (.statusClear mask)).extractLsb' s l =
      (opcStatusClear ++ 0#8).extractLsb' (s - 16) l := fun s l hs => extract_above _ mask hs
  have h' : ∀ s l, s + l ≤ 16 → (wireWord (.statusClear mask)).extractLsb' s l = mask.extractLsb' s l :=
    fun s l hs => extract_within _ mask hs
  simp only [fixedFields, List.mem_cons, List.not_mem_nil, or_false] at hf
  rcases hf with rfl | rfl | rfl | rfl
  · simp (disch := decide) only [h]; rfl
  · simp (disch := decide) only [h]; rfl
  · simp (disch := decide) only [h', high]; rfl
  · simp (disch := decide) only [h', low]; rfl

theorem RowMatch.ctrlHdrRd (aid : Bit) (mms : BitVec 4) (addr : BitVec 16) (len : BitVec 7) (p : Bit) :
    RowMatch.Statement (.ctrlHdrRd aid mms addr len p) := by
  intro _ f hf
  obtain ⟨h1, h2, h3⟩ := ctrlWord_marks 0#1 0#1 0#1 aid mms addr len p
  simp only [fixedFields, List.mem_cons, List.not_mem_nil, or_false] at hf
  rcases hf with rfl | rfl | rfl
  · exact congrArg BitVec.toNat h1
  · exact congrArg BitVec.toNat h2
  · exact congrArg BitVec.toNat h3

theorem RowMatch.ctrlHdrWr (aid : Bit) (mms : BitVec 4) (addr : BitVec 16) (len : BitVec 7) (p : Bit) :
    RowMatch.Statement (.ctrlHdrWr aid mms addr len p) := by
  intro _ f hf
  obtain ⟨h1, h2, h3⟩ := ctrlWord_marks 0#1 0#1 1#1 aid mms addr len p
  simp only [fixedFields, List.mem_cons, List.not_mem_nil, or_false] at hf
  rcases hf with rfl | rfl | rfl
  · exact congrArg BitVec.toNat h1
  · exact congrArg BitVec.toNat h2
  · exact congrArg BitVec.toNat h3

/-- The row of the control echo fixes no bit. -/
theorem RowMatch.ctrlEcho (dnc hdrb wnr aid : Bit) (mms : BitVec 4) (addr : BitVec 16) (len : BitVec 7) (p : Bit) :
    RowMatch.Statement (.ctrlEcho dnc hdrb wnr aid mms addr len p) := by
  intro _ f hf; cases hf

theorem RowMatch.ctrlEchoNoreply0 : RowMatch.Statement .ctrlEchoNoreply0 := by unfold RowMatch.Statement; decide

theorem RowMatch.ctrlEchoNoreply1 : RowMatch.Statement .ctrlEchoNoreply1 := by unfold RowMatch.Statement; decide

theorem RowMatch.dataPoll (p : Bit) : RowMatch.Statement (.dataPoll p) := by
  intro _ f hf
  have h : ∀ s l, 1 ≤ s → (wireWord (.dataPoll p)).extractLsb' s l = (1#1 ++ 0#30 : BitVec 31).extractLsb' (s - 1) l :=
    fun s l hs => extract_above _ p hs
  simp only [fixedFields, List.mem_cons, List.not_mem_nil, or_false] at hf
  rcases hf with rfl | rfl <;> simp (disch := decide) only [h] <;> rfl

theorem RowMatch.dataHdr (sv ev : Bit) (ebo : BitVec 6) (p : Bit) : RowMatch.Statement (.dataHdr sv ev ebo p) := by
  intro _ f hf
  have h : ∀ s l, 1 ≤ s → (wireWord (.dataHdr sv ev ebo p)).extractLsb' s l =
      (1#1 ++ 0#1 ++ 0#1 ++ 0#5 ++ 0#2 ++ 1#1 ++ sv ++ 0#4 ++ 0#1 ++ ev ++ ebo ++ 0#2 ++ 0#5).extractLsb' (s - 1) l :=
    fun s l hs => extract_above _ p hs
  simp only [fixedFields, List.mem_cons, List.not_mem_nil, or_false] at hf
  rcases hf with rfl | rfl | rfl | rfl | rfl <;>
    simp (disch := decide) only [h, extract_above, extract_within, Nat.reduceSub, BitVec.extractLsb'_eq_self] <;> rfl

theorem RowMatch.ftrNodata (sv ev : Bit) (b : FooterBits) : RowMatch.Statement (.ftrNodata sv ev b) := by
  intro _ f hf
  obtain ⟨h1, -, -⟩ := footerWord_marks (footerOf 0#1 sv ev b) b.p
  simp only [fixedFields, List.mem_cons, List.not_mem_nil, or_false] at hf
  subst hf
  exact congrArg BitVec.toNat h1

theorem RowMatch.ftrCont (b : FooterBits) : RowMatch.Statement (.ftrCont b) := by
  intro _ f hf
  obtain ⟨h1, h2, h3⟩ := footerWord_marks (footerOf 1#1 0#1 0#1 b) b.p
  simp only [fixedFields, List.mem_cons, List.not_mem_nil, or_false] at hf
  rcases hf with rfl | rfl | rfl
  · exact congrArg BitVec.toNat h1
  · exact congrArg BitVec.toNat h2
  · exact congrArg BitVec.toNat h3

theorem RowMatch.ftrSof (b : FooterBits) : RowMatch.Statement (.ftrSof b) := by
  intro _ f hf
  obtain ⟨h1, h2, h3⟩ := footerWord_marks (footerOf 1#1 1#1 0#1 b) b.p
  simp only [fixedFields, List.mem_cons, List.not_mem_nil, or_false] at hf
  rcases hf with rfl | rfl | rfl
  · exact congrArg BitVec.toNat h1
  · exact congrArg BitVec.toNat h2
  · exact congrArg BitVec.toNat h3

theorem RowMatch.ftrEof (b : FooterBits) : RowMatch.Statement (.ftrEof b) := by
  intro _ f hf
  obtain ⟨h1, h2, h3⟩ := footerWord_marks (footerOf 1#1 0#1 1#1 b) b.p
  simp only [fixedFields, List.mem_cons, List.not_mem_nil, or_false] at hf
  rcases hf with rfl | rfl | rfl
  · exact congrArg BitVec.toNat h1
  · exact congrArg BitVec.toNat h2
  · exact congrArg BitVec.toNat h3

theorem RowMatch.ftrSofEof (b : FooterBits) : RowMatch.Statement (.ftrSofEof b) := by
  intro _ f hf
  obtain ⟨h1, h2, h3⟩ := footerWord_marks (footerOf 1#1 1#1 1#1 b) b.p
  simp only [fixedFields, List.mem_cons, List.not_mem_nil, or_false] at hf
  rcases hf with rfl | rfl | rfl
  · exact congrArg BitVec.toNat h1
  · exact congrArg BitVec.toNat h2
  · exact congrArg BitVec.toNat h3

end Sys2Proof.Laws
end

