-- ==== Sys2Proof/Tests/Slice0.lean ====
section
/-! SUPPORT. Tests: ill-formed terms that WellFormed refuses, words written out from the encodings of 30_encoding.md and what
they decode to, one or two steps of each instruction with the results of 95_test_vectors.md (the vector is named at each),
and for every statement with hypotheses a concrete state and operands that meet them. -/

namespace Sys2Proof.Tests

open Sys2Proof Sys2Proof.Machine

/-! ### Well-formedness: one ill-formed term for each check -/

theorem test_wf_refuses_count_zero : ¬(Instr.regRead 0#1 0#4 1#16 0#8).WellFormed := by decide
theorem test_wf_refuses_count_129 : ¬(Instr.regRead 0#1 0#4 1#16 129#8).WellFormed := by decide
theorem test_wf_refuses_no_values : ¬(Instr.regWrite 0#1 0#4 1#16 []).WellFormed := by decide
theorem test_wf_refuses_129_values : ¬(Instr.regWrite 0#1 0#4 1#16 (List.replicate 129 0#32)).WellFormed := by
  simp [Instr.wf, Config.maxRegs]
theorem test_wf_refuses_empty_frame : ¬(Instr.txEnqueue []).WellFormed := by decide
theorem test_wf_refuses_long_frame (frame : List Byte) (h : frame.length = 65536) : ¬(Instr.txEnqueue frame).WellFormed := by
  simp [Instr.wf, h]
theorem test_wf_refuses_reserved_mask : ¬(Instr.statusClear 0x0020#16).WellFormed := by decide
theorem test_wf_refuses_echo_zeros : ¬(Instr.ctrlEcho 0#1 0#1 0#1 0#1 0#4 0#16 0#7 0#1).WellFormed := by decide
theorem test_wf_refuses_echo_ones : ¬(Instr.ctrlEcho 1#1 1#1 1#1 1#1 15#4 0xFFFF#16 127#7 1#1).WellFormed := by decide

/-! ### Decoding: words written out from 30_encoding.md -/

/-- R152 `INIT`: bit 4 TSCAP, bit 3 ZA, bits 1:0 WCODE. -/
theorem test_decode_init : decode .command [0b00000001_0000000000000000000_1_0_0_11#32] = .ok (.init 1#1 0#1 3#2) := by decide
theorem test_decode_shutdown : decode .command [0x02000000#32] = .ok .shutdown := by decide
/-- R152 `REG_READ`: bit 23 AID, bits 19:16 MMS, bits 15:0 ADDR; word 1 COUNT. -/
theorem test_decode_regRead :
    decode .command [0b00010000_1_000_0100_0000000000010000#32, 3#32] = .ok (.regRead 1#1 4#4 0x0010#16 3#8) := by decide
theorem test_decode_regWrite : decode .command [0x11010024#32, 1#32, 0xDDCCBBAA#32] =
    .ok (.regWrite 0#1 1#4 0x0024#16 [0xDDCCBBAA#32]) := by decide
/-- R152 `TX_ENQUEUE`: the pad bytes of the last word are ignored (vector TX2). -/
theorem test_decode_txEnqueue : decode .command [0x20000000#32, 5#32, 0x01020304#32, 0x05FFFFFF#32] =
    .ok (.txEnqueue [1#8, 2#8, 3#8, 4#8, 5#8]) := by decide
theorem test_decode_rxPoll : decode .command [0x21000000#32] = .ok .rxPoll := by decide
theorem test_decode_tsEnable : decode .command [0x30000000#32] = .ok .tsEnable := by decide
theorem test_decode_tsDisable : decode .command [0x31000000#32] = .ok .tsDisable := by decide
theorem test_decode_statusRead : decode .command [0x40000000#32] = .ok .statusRead := by decide
theorem test_decode_statusClear : decode .command [0x41000101#32] = .ok (.statusClear 0x0101#16) := by decide
/-- R111: DNC, HDRB, WNR, AID, MMS, ADDR, LEN, P. -/
theorem test_decode_ctrlHdrRd : decode .outbound [0b0_0_0_1_0100_0000000000010000_0000010_1#32] =
    .ok (.ctrlHdrRd 1#1 4#4 0x0010#16 2#7 1#1) := by decide
theorem test_decode_ctrlHdrWr : decode .outbound [0b0_0_1_1_1111_1111111111111111_1111111_0#32] =
    .ok (.ctrlHdrWr 1#1 15#4 0xFFFF#16 127#7 0#1) := by decide
theorem test_decode_ctrlEcho : decode .ctrlIn [0b0_1_0_0_0000_0000000000000001_0000000_1#32] =
    .ok (.ctrlEcho 0#1 1#1 0#1 0#1 0#4 1#16 0#7 1#1) := by decide
theorem test_decode_ctrlEchoNoreply0 : decode .ctrlIn [0x00000000#32] = .ok .ctrlEchoNoreply0 := by decide
theorem test_decode_ctrlEchoNoreply1 : decode .ctrlIn [0xFFFFFFFF#32] = .ok .ctrlEchoNoreply1 := by decide
theorem test_decode_dataPoll : decode .outbound [0x80000000#32] = .ok (.dataPoll 0#1) := by decide
/-- R115: DNC, SEQ, NORX, reserved, VS, DV, SV, SWO, reserved, EV, EBO, TSC, reserved, P. -/
theorem test_decode_dataHdr : decode .outbound [0b1_0_0_00000_00_1_0_0000_0_1_100011_00_00000_1#32] =
    .ok (.dataHdr 0#1 1#1 35#6 1#1) := by decide
/-- R117: EXST, HDRB, SYNC, RCA, VS, DV, SV, SWO, FD, EV, EBO, RTSA, RTSP, TXC, P. -/
theorem test_decode_ftrNodata : decode .dataIn [0b1_1_1_00011_11_0_0_0000_1_0_000000_0_1_00010_1#32] =
    .ok (.ftrNodata 0#1 0#1 ⟨1#1, 1#1, 1#1, 3#5, 3#2, 0#4, 1#1, 0#6, 0#1, 1#1, 2#5, 1#1⟩) := by decide
theorem test_decode_ftrCont : decode .dataIn [0x20200001#32] =
    .ok (.ftrCont ⟨0#1, 0#1, 1#1, 0#5, 0#2, 0#4, 0#1, 0#6, 0#1, 0#1, 0#5, 1#1⟩) := by decide
theorem test_decode_ftrSof : decode .dataIn [0x21310009#32] =
    .ok (.ftrSof ⟨0#1, 0#1, 1#1, 1#5, 0#2, 1#4, 0#1, 0#6, 0#1, 0#1, 4#5, 1#1⟩) := by decide
theorem test_decode_ftrEof : decode .dataIn [0x2020C700#32] =
    .ok (.ftrEof ⟨0#1, 0#1, 1#1, 0#5, 0#2, 0#4, 1#1, 7#6, 0#1, 0#1, 0#5, 0#1⟩) := by decide
theorem test_decode_ftrSofEof : decode .dataIn [0x20304781#32] =
    .ok (.ftrSofEof ⟨0#1, 0#1, 1#1, 0#5, 0#2, 0#4, 0#1, 7#6, 1#1, 0#1, 0#5, 1#1⟩) := by decide
/-- The bare words that the opcode table numbers (spec/opcode_table.json), read by `decodeTableWord`. -/
theorem test_decode_table : decodeTableWord 64 0x0000000310840010 = some (.regRead 1#1 4#4 0x0010#16 3#8) ∧
    decodeTableWord 32 0x80200000 = some (.dataHdr 0#1 0#1 0#6 0#1) := by decide

/-! ### States for the tests -/

/-- The engine after `INIT [0x01000000]` (W = 8, parameter set T), with an empty history. -/
def idle : State := { State.reset with phase := .idle }

/-- The engine before INIT. -/
def cold : State := State.reset

/-- One input. -/
def given (e : Event) (s : State) : State := { s with inputs := [e] }

/-- The read `REG_READ mms=0, addr=0x0001, count=1` of caller 7 (vector CT1). -/
def read1 : Txn := mkTxn .odd .rd 0#1 0#4 1#16 1 [] 7

/-- The write `REG_WRITE mms=1, addr=0x0024, [0xDDCCBBAA]` of caller 7 (vector SE8). -/
def write1 : Txn := mkTxn .odd .wr 0#1 1#4 0x24#16 1 [0xDDCCBBAA#32] 7

/-- A control exchange of `t` in flight. -/
def asking (t : Txn) (s : State) : State :=
  { s with phase := .exchanging, xkind := .ctrl, slot := some t, xout := ctrlOut t }

/-- A credit poll in flight, W = 8. -/
def polling (s : State) : State := { s with phase := .exchanging, xkind := .poll, xout := 0x80#8 :: zeros 11 }

/-- The chunk of the one-byte frame 0x77 in flight (vector CR2). -/
def sending (s : State) : State :=
  { s with phase := .exchanging, xkind := .data, xlen := 1, txcur := some ⟨[0x77#8], 0, 0⟩
           xout := [0x80#8, 0x30#8, 0x40#8, 0x01#8, 0x77#8] ++ zeros 7 }

/-- A receive frame of the bytes 01 to 08 in progress. -/
def assembling (s : State) : State := { s with rxst := .asm, rxbuf := [1#8, 2#8, 3#8, 4#8, 5#8, 6#8, 7#8, 8#8], syncSeen := true }

/-- The payload P2 of the receive vectors. -/
def payload2 : List Byte := [9#8, 10#8, 11#8, 12#8, 13#8, 14#8, 15#8, 16#8]

/-- The inbound string `in` stands in the state. -/
def arriving (bytes : List Byte) (s : State) : State := { s with xin := bytes }

/-- A view of the next state, none where there is none. -/
def after {α : Type} (r : Result) (view : State → α) : Option α :=
  match r with
  | .next t => some (view t)
  | .fault _ => none
  | .refused _ => none

/-! ### One step of each instruction -/

/-- LS2 -/
theorem test_init_w64 : after (step (given (.cmd 7 [0x01000003#32]) cold)) (fun t => (t.history, statusS0 t, t.cfgW)) =
    some ([.resp 7 [0x01000000#32]], 0x00001801#32, 64) := by decide
/-- LS2, INIT in IDLE -/
theorem test_init_when_idle : after (step (given (.cmd 7 [0x01000003#32]) idle)) (fun t => (t.history, t.cfgW)) =
    some ([.resp 7 [0x01000007#32]], 8) := by decide
/-- The worked example of 45_lifecycle_status.md R351 -/
theorem test_shutdown_releases : after (step (given (.cmd 7 [0x02000000#32]) { idle with txq := [[1#8]] }))
    (fun t => (t.history, t.phase, t.txq)) = some ([.txUndelivered [1#8], .resp 7 [0x02000000#32]], .stopped, []) := by decide
/-- P4 step 5 -/
theorem test_shutdown_drains : after (step (given (.cmd 3 [0x02000000#32]) (asking read1 idle)))
    (fun t => (t.history, t.phase, t.shutCaller)) = some ([], .draining, some 3) := by decide
/-- CT7 -/
theorem test_regRead_takes_slot : after (step (given (.cmd 7 [0x10840010#32, 3#32]) idle))
    (fun t => (t.slot.map (fun x => (x.hdr, x.n, x.caller)), t.freshWake)) = some (some (0x14001005#32, 3, 7), true) := by decide
/-- CT5: the third command is held -/
theorem test_regRead_held : after (step (given (.cmd 9 [0x10000003#32, 1#32]) { idle with slot := some read1, ctrlq := [read1] }))
    (fun t => (t.history, t.slot, t.ctrlq, t.freshWake, t.held)) =
      some ([], some read1, [read1], false, [⟨9, [0x10000003#32, 1#32]⟩]) := by decide
/-- SE8 -/
theorem test_regWrite_takes_slot : after (step (given (.cmd 7 [0x11010024#32, 1#32, 0xDDCCBBAA#32]) idle))
    (fun t => t.slot.map (fun x => (x.hdr, x.wvals))) = some (some (0x21002401#32, [0xDDCCBBAA#32])) := by decide
/-- CT6, the last row of its table -/
theorem test_regWrite_short : after (step (given (.cmd 7 [0x11000001#32, 2#32, 1#32]) idle)) (fun t => (t.history, t.slot)) =
    some ([.resp 7 [0x11000007#32]], none) := by decide
/-- TX8 -/
theorem test_txEnqueue : after (step (given (.cmd 7 [0x20000000#32, 5#32, 0x01020304#32, 0x05000000#32]) idle))
    (fun t => (t.history, t.txq)) = some ([.resp 7 [0x20000000#32]], [[1#8, 2#8, 3#8, 4#8, 5#8]]) := by decide
/-- TX1 -/
theorem test_txEnqueue_busy : after (step (given (.cmd 7 [0x20000000#32, 1#32, 0#32]) { idle with txq := [[0#8], [0#8]] }))
    (fun t => (t.history, t.txq)) = some ([.resp 7 [0x20000006#32]], [[0#8], [0#8]]) := by decide
/-- RX_POLL, the first vector of 43_data_framer.md R283 -/
theorem test_rxPoll : after (step (given (.cmd 7 [0x21000000#32]) { idle with rxq := [⟨[0xAA#8, 0xBB#8, 0xCC#8], false⟩] }))
    (fun t => (t.history, t.rxq)) = some ([.resp 7 [0x21000000#32, 1#32, 3#32, 0xAABBCC00#32]], []) := by decide
/-- RX_POLL, the second -/
theorem test_rxPoll_empty : after (step (given (.cmd 7 [0x21000000#32]) idle)) (fun t => t.history) =
    some [.resp 7 [0x21000000#32, 0#32]] := by decide
/-- LS3 -/
theorem test_tsEnable : after (step (given (.cmd 7 [0x30000000#32]) { idle with cfgTscap := true }))
    (fun t => (t.history, statusS0 t)) = some ([.resp 7 [0x30000000#32]], 0x00000501#32) := by decide
/-- LS3 -/
theorem test_tsEnable_unsupported : after (step (given (.cmd 7 [0x30000000#32]) idle)) (fun t => (t.history, t.tsEn)) =
    some ([.resp 7 [0x30000008#32]], false) := by decide
/-- LS3 -/
theorem test_tsDisable : after (step (given (.cmd 7 [0x31000000#32]) { idle with cfgTscap := true, tsEn := true }))
    (fun t => (t.history, statusS0 t)) = some ([.resp 7 [0x31000000#32]], 0x00000401#32) := by decide
/-- LS9 -/
theorem test_statusRead : after (step (given (.cmd 7 [0x40000000#32]) { idle with cfgWcode := 3#2, cfgW := 64 }))
    (fun t => t.history) = some [.resp 7 [0x40000000#32, 0x00001801#32, 0#32, 0#32, 0#32, 0#32, 0#32, 0#32, 0#32]] := by decide
/-- LS8 -/
theorem test_statusRead_saturates : statusS1 { idle with stallPolls := 70000 } = 0xFFFF0000#32 := by decide
/-- LS4 -/
theorem test_statusClear : after (step (given (.cmd 7 [0x41000101#32])
    { idle with stUnsync := true, stExst := true, cntRxDrop := 5#32, cntRxOvf := 6#32 }))
    (fun t => (t.history, t.stUnsync, t.stExst, t.cntRxDrop, t.cntRxOvf)) =
      some ([.resp 7 [0x41000000#32]], false, true, 0#32, 6#32) := by decide
/-- LS4 -/
theorem test_statusClear_reserved : after (step (given (.cmd 7 [0x41000020#32]) { idle with stUnsync := true }))
    (fun t => (t.history, t.stUnsync)) = some ([.resp 7 [0x41000007#32]], true) := by decide
/-- CT1, its transaction's exchange -/
theorem test_ctrlHdrRd : after (step (given .issue { idle with slot := some read1 })) (fun t => (t.history, t.phase, t.xkind)) =
    some ([.xferReq ([0#8, 0#8, 1#8, 0#8] ++ zeros 8)], .exchanging, .ctrl) := by decide
/-- SE8 -/
theorem test_ctrlHdrWr : after (step (given .issue { idle with slot := some write1 })) (fun t => t.history) =
    some [.xferReq [0x21#8, 0#8, 0x24#8, 1#8, 0xDD#8, 0xCC#8, 0xBB#8, 0xAA#8, 0#8, 0#8, 0#8, 0#8]] := by decide
/-- CT1, MATCH -/
theorem test_ctrlEcho_match : after (step (given (.complete (zeros 4 ++ toBE32 0x00000100#32 ++ toBE32 0x5A5A5A5A#32))
    (asking read1 idle))) (fun t => (t.history.getLast?, t.slot, t.phase)) =
      some (some (.resp 7 [0x10000000#32, 0x5A5A5A5A#32]), none, .idle) := by decide
/-- CT1, HDRB with good parity -/
theorem test_ctrlEcho_hdrb : after (step (given (.complete (zeros 4 ++ toBE32 0x40000101#32 ++ zeros 4)) (asking read1 idle)))
    (fun t => (t.history.length, t.slot.map (fun x => (x.pfail, x.nrep)))) = some (1, some (1, 0)) := by decide
/-- CT3, the third completion -/
theorem test_noreply0_times_out : after (step (given (.complete (zeros 12)) (asking { read1 with nrep := 2 } idle)))
    (fun t => (t.history.getLast?, t.slot, t.stUnreach)) = some (some (.resp 7 [0x10000003#32]), none, true) := by decide
/-- CT1, its last row -/
theorem test_noreply1_retries : after (step (given (.complete (zeros 4 ++ toBE32 0xFFFFFFFF#32 ++ zeros 4)) (asking read1 idle)))
    (fun t => (t.history.length, t.slot.map (fun x => (x.pfail, x.nrep)))) = some (1, some (0, 1)) := by decide
/-- P5 step 3 -/
theorem test_dataPoll : after (step (given .issue { idle with txq := [[0x55#8]], freshWake := true }))
    (fun t => (t.history, t.stallPolls, t.freshWake)) = some ([.xferReq (0x80#8 :: zeros 11)], 1, false) := by decide
/-- P2 step 4 -/
theorem test_dataHdr_last : after (step (given .issue { idle with txc := 6#5, txcur := some ⟨[0x10#8, 0x11#8, 0x12#8, 0x13#8,
    0x14#8, 0x15#8, 0x16#8, 0x17#8, 0x18#8, 0x19#8], 8, 0⟩ })) (fun t => (t.history, t.txc, t.xlen)) =
      some ([.xferReq ([0x80#8, 0x20#8, 0x41#8, 0x01#8, 0x18#8, 0x19#8] ++ zeros 6)], 5#5, 2) := by decide
/-- CR2 -/
theorem test_dataHdr_first : after (step (given .issue { idle with txc := 2#5, txq := [[0x77#8]] }))
    (fun t => (t.history, t.txc, t.txcur, t.txq)) =
      some ([.xferReq ([0x80#8, 0x30#8, 0x40#8, 0x01#8, 0x77#8] ++ zeros 7)], 1#5, some ⟨[0x77#8], 0, 0⟩, []) := by decide
/-- CR5 -/
theorem test_ftrNodata_flags : after (step (given (.complete (zeros 8 ++ toBE32 0xE0000005#32)) (polling idle)))
    (fun t => (statusS0 t, t.txc)) = some (0x00060081#32, 2#5) := by decide
/-- CR3: an invalid footer commits the chunk -/
theorem test_ftrNodata_parity : after (step (given (.complete (zeros 8 ++ toBE32 0x2000003E#32))
    (sending { idle with txc := 1#5, syncSeen := true }))) (fun t => (statusS0 t, t.txc, t.cntFtrErr, t.history.getLast?)) =
      some (0x00100081#32, 1#5, 1#32, some (.txDone [0x77#8])) := by decide
/-- RX16, its second chunk -/
theorem test_ftrCont_too_long : after (step (given (.complete (payload2 ++ toBE32 0x21200000#32))
    (polling (assembling { idle with par := { resetParams with rxMaxFrame := 12 } })))) (fun t => (t.cntRxDrop, t.rxst)) =
      some (1#32, .idle) := by decide
/-- SE5 at W = 8 and LS5 -/
theorem test_ftrSof_restarts : after (step (given (.complete (payload2 ++ toBE32 0x21300001#32))
    (polling (assembling { idle with cntRxDrop := 0xFFFFFFFF#32 })))) (fun t => (t.cntRxDrop, t.rxst, t.rxbuf)) =
      some (0#32, .asm, payload2) := by decide
/-- P3 step 3 -/
theorem test_ftrSof_offset : after (step (given (.complete ([0xEE#8, 0xEE#8, 0xEE#8, 0xEE#8, 1#8, 2#8, 3#8, 4#8] ++
    toBE32 0x21310000#32)) (polling idle))) (fun t => (t.rxst, t.rxbuf, t.rca)) =
      some (.asm, [1#8, 2#8, 3#8, 4#8], 1#5) := by decide
/-- RX17 -/
theorem test_ftrEof_delivers : after (step (given (.complete (payload2 ++ toBE32 0x20204300#32))
    (polling (assembling { idle with par := { resetParams with rxMaxFrame := 12 } })))) (fun t => (t.rxq, t.rxst)) =
      some ([⟨[1#8, 2#8, 3#8, 4#8, 5#8, 6#8, 7#8, 8#8, 9#8, 10#8, 11#8, 12#8], false⟩], .idle) := by decide
/-- CR6: the sync flag falls -/
theorem test_ftrCont_sync_falls : after (step (given (.complete (payload2 ++ toBE32 0x00200005#32))
    (sending (assembling { idle with txc := 1#5 })))) (fun t => (statusS0 t, t.cntRxDrop, t.txcur, t.rxst)) =
      some (0x00014001#32, 1#32, some ⟨[0x77#8], 0, 0⟩, .idle) := by decide
/-- RX2 -/
theorem test_ftrSofEof_whole : after (step (given (.complete ([1#8, 2#8, 3#8, 4#8, 5#8, 6#8, 7#8, 8#8] ++ toBE32 0x20314600#32))
    (polling idle))) (fun t => (t.rxq, t.history.getLast?)) =
      some ([⟨[5#8, 6#8, 7#8], false⟩], some (.rxFrame [5#8, 6#8, 7#8] false)) := by decide
/-- RX5, its second chunk -/
theorem test_ftrSofEof_end_then_start : after (step (given (.complete (payload2 ++ toBE32 0x21314100#32)) (polling (assembling idle))))
    (fun t => (t.rxq, t.rxst, t.rxbuf)) =
      some ([⟨[1#8, 2#8, 3#8, 4#8, 5#8, 6#8, 7#8, 8#8, 9#8, 10#8], false⟩], .asm, [13#8, 14#8, 15#8, 16#8]) := by decide

/-! ### Witnesses: a state and operands that meet the hypotheses of each statement, clause by clause -/

theorem witness_DecodeOfEncodeIsTheInstruction :
    (Instr.regRead 0#1 0#4 0#16 1#8).WellFormed ∧ (Instr.regRead 1#1 15#4 0xFFFF#16 128#8).WellFormed ∧
      (Instr.regWrite 0#1 0#4 0#16 [1#32]).WellFormed ∧ (Instr.txEnqueue [0#8]).WellFormed ∧
      (Instr.statusClear 0x0F1F#16).WellFormed ∧ (Instr.ctrlEcho 0#1 0#1 0#1 0#1 0#4 0#16 0#7 1#1).WellFormed := by decide

theorem witness_EncodeOfDecodedWireWordIsTheWord :
    Port.outbound ≠ .command ∧ decode .outbound [0x80307F01#32] = .ok (.dataHdr 1#1 1#1 63#6 1#1) ∧
      Port.ctrlIn ≠ .command ∧ decode .ctrlIn [0xFFFFFFFF#32] = .ok .ctrlEchoNoreply1 ∧
      Port.dataIn ≠ .command ∧ decode .dataIn [0x20000000#32] = .ok (decodeDataIn 0x20000000#32) := by decide

theorem witness_DecodedDescriptorDeterminesItsWords :
    decode .command [0x20000000#32, 5#32, 0x01020304#32, 0x05FFFFFF#32] = .ok (.txEnqueue [1#8, 2#8, 3#8, 4#8, 5#8]) ∧
      decode .command [0x10000001#32, 1#32] = .ok (.regRead 0#1 0#4 1#16 1#8) := by decide

/-- (a) marks and offsets at the edge of a payload of 8 bytes, (b) the least and the largest count, (c) the least and the
largest end count. -/
theorem witness_CodecRoundTrips :
    (footerFields 0x20314701#32).malformed 8 = false ∧ (1 ≤ 1 ∧ 1 ≤ Config.maxRegs) ∧ (1 ≤ 128 ∧ 128 ≤ Config.maxRegs) ∧
      ((1#1 : Bit) = 1#1 → 1 ≤ 1 ∧ 1 ≤ 64) ∧ ((1#1 : Bit) = 1#1 → 1 ≤ 64 ∧ 64 ≤ 64) ∧
      ((0#1 : Bit) = 1#1 → 1 ≤ 0 ∧ 0 ≤ 64) := by decide

theorem read1_made : read1.Made resetParams := Txn.made_of_check (by decide)
theorem write1_made : write1.Made resetParams := Txn.made_of_check (by decide)

theorem witness_EchoMatchesIffItIsTheHeader :
    read1.Made resetParams ∧ (0x00000100#32 ≠ 0#32 ∧ 0x00000100#32 ≠ 0xFFFFFFFF#32) ∧ read1.hdr = 0x00000100#32 :=
  ⟨read1_made, by decide, by decide⟩

theorem witness_EchoChecksInOrder :
    (0x00000101#32 ≠ 0#32 ∧ 0x00000101#32 ≠ 0xFFFFFFFF#32 ∧ parityOk .odd 0x00000101#32 = false) ∧
      (0x40000101#32 ≠ 0#32 ∧ 0x40000101#32 ≠ 0xFFFFFFFF#32 ∧ (0x40000101#32 : Word32).extractLsb' 30 1 = 1#1) ∧
      (0x00000200#32 ≠ 0#32 ∧ 0x00000200#32 ≠ 0xFFFFFFFF#32 ∧ parityOk .odd 0x00000200#32 = true ∧
        (0x00000200#32 : Word32).extractLsb' 30 1 = 0#1) := by decide

/-- The engine of vector CT5 with a held command of caller 9. -/
def holding : State := { idle with slot := some read1, ctrlq := [write1], held := [⟨9, [0x10000003#32, 1#32]⟩] }

/-- The port has no command to accept: it holds none. -/
theorem next_of_no_held {s : State} (h : s.held = []) : s.NextIsInput := by
  intro x rest hx; rw [h] at hx; cases hx

/-- A state in which the port holds the command of `holding` and the slot and the queue are full. -/
theorem next_while_held {s : State} (hh : s.held = holding.held) (hp : s.phase = .idle ∨ s.phase = .exchanging)
    (hs : s.slot ≠ none) (hq : s.par.ctrlqCap ≤ s.ctrlq.length) : s.NextIsInput := by
  intro x rest hx
  rw [hh] at hx; cases hx
  exact ⟨.regRead 0#1 0#4 3#16 1#8, by decide, .inl ⟨_, _, _, _, rfl⟩, by decide, hp, hs, hq⟩

/-- A control exchange in flight whose completion makes room for the held command. -/
def fullExchange : State := { asking read1 holding with inputs := [.complete (zeros 4 ++ toBE32 0x00000100#32 ++ zeros 4)] }

/-- While a command is held: another caller's SHUTDOWN, the scheduler's turn as an input and with no input, and the completion
that makes room. -/
theorem witness_StepRunsTheDecodedInstruction_held :
    ((given (.cmd 7 [0x02000000#32]) holding).NextIsInput ∧ ∀ h ∈ holding.held, h.caller ≠ 7) ∧
      (given .issue holding).NextIsInput ∧ scheduledHeader holding = some 0x00000100#32 ∧
      (holding.NextIsInput ∧ holding.inputs = []) ∧
      (fullExchange.NextIsInput ∧ (fullExchange.phase = .exchanging ∨ fullExchange.phase = .draining) ∧
        (zeros 4 ++ toBE32 0x00000100#32 ++ zeros 4).length = fullExchange.xout.length ∧
        memRead (zeros 4 ++ toBE32 0x00000100#32 ++ zeros 4) 4 4 = toBE32 0x00000100#32) :=
  ⟨⟨next_while_held rfl (.inl rfl) (by decide) (by decide), by decide⟩,
    next_while_held rfl (.inl rfl) (by decide) (by decide), by decide,
    ⟨next_while_held rfl (.inl rfl) (by decide) (by decide), rfl⟩,
    next_while_held rfl (.inr rfl) (by decide) (by decide), .inl rfl, by decide, by decide⟩

/-- The four clauses with no command held: a descriptor, the scheduler's turn as an input, its turn with no input, and a completion of a control
exchange and of a poll. -/
theorem witness_StepRunsTheDecodedInstruction :
    ((given (.cmd 7 [0x02000000#32]) idle).held = [] ∧ decode .command [0x02000000#32] = .ok .shutdown) ∧
      (scheduledHeader (given .issue { idle with slot := some read1 }) = some 0x00000100#32 ∧
        decode .outbound [0x00000100#32] = .ok (.ctrlHdrRd 0#1 0#4 1#16 0#7 0#1)) ∧
      ({ idle with irqPending := true }.inputs = [] ∧ scheduledHeader { idle with irqPending := true } = some 0x80000000#32 ∧
        decode .outbound [0x80000000#32] = .ok (.dataPoll 0#1)) ∧
      ((zeros 4 ++ toBE32 0x00000100#32 ++ zeros 4).length = (asking read1 idle).xout.length ∧
        memRead (zeros 4 ++ toBE32 0x00000100#32 ++ zeros 4) (if (asking read1 idle).xkind = .ctrl then 4 else 8) 4 =
          toBE32 0x00000100#32 ∧
        decode .ctrlIn [0x00000100#32] = .ok (.ctrlEcho 0#1 0#1 0#1 0#1 0#4 1#16 0#7 0#1)) ∧
      ((zeros 8 ++ toBE32 0x20000000#32).length = (polling idle).xout.length ∧
        memRead (zeros 8 ++ toBE32 0x20000000#32) (if (polling idle).xkind = .ctrl then 4 else (polling idle).cfgW) 4 =
          toBE32 0x20000000#32 ∧ decode .dataIn [0x20000000#32] = .ok (decodeDataIn 0x20000000#32)) := by decide

theorem witness_InvalidDescriptorIsAnswered :
    (given (.cmd 7 []) cold).held = [] ∧ decode .command [] = .error .emptyDescriptor ∧
      decode .command [0x99000000#32] = .error .illegalOpcode ∧ decode .command [0x01000020#32] = .error .reservedField ∧
      decode .command [0x02000000#32, 0#32] = .error .wrongLength := by decide

theorem witness_OperandOutOfRangeIsInvalid :
    ((0#8 : BitVec 8).toNat = 0 ∨ Config.maxRegs < (0#8 : BitVec 8).toNat) ∧
      ((129#8 : BitVec 8).toNat = 0 ∨ Config.maxRegs < (129#8 : BitVec 8).toNat) ∧
      (([] : List Word32) = [] ∨ Config.maxRegs < ([] : List Word32).length) ∧
      (([] : List Byte) = [] ∨ idle.par.txMaxFrame < ([] : List Byte).length) ∧ 0x0020#16 &&& 0xF0E0#16 ≠ 0#16 := by decide

theorem witness_OperandOutOfRangeIsInvalid_long (frame : List Byte) (h : frame.length = 1519) :
    frame = [] ∨ idle.par.txMaxFrame < frame.length := .inr (by rw [h]; decide)

theorem witness_WakeSetsTheLatches :
    ((given .wake idle).held = [] ∧ (given .wake idle).inputs = [.wake] ∧ (given .wake idle).phase = .idle) ∧
      ((given .wake cold).held = [] ∧ (given .wake cold).inputs = [.wake] ∧ (given .wake cold).phase = .uninit) := by decide

theorem witness_NoStepWhereNoneIsEnabled :
    (idle.held = [] ∧ hasWork idle = false ∧ idle.inputs = [] ∧ (given .issue cold).phase ≠ .idle) ∧
      ((Instr.dataPoll 0#1).port = .outbound ∧ cold.phase ≠ .idle) ∧
      (Instr.ctrlEchoNoreply0.port = .ctrlIn ∧ idle.phase ≠ .exchanging ∧ idle.phase ≠ .draining) ∧
      ((given .fault idle).inputs = [.fault] ∧ (given (.complete []) idle).inputs = [.complete []]) ∧
      ((given (.complete []) (polling idle)).phase = .exchanging ∧ ([] : List Byte).length ≠ (polling idle).xout.length) := by
  decide

/-- An engine that drains a credit poll for caller 3, with a frame queued. -/
def draining : State := { polling idle with phase := .draining, shutCaller := some 3, txq := [[0x41#8]] }

theorem witness_TransportFaultFailsOrEndsTheDrain :
    ((given .fault (polling idle)).held = [] ∧ (polling idle).phase = .exchanging ∧ (polling idle).fatalCause = .none) ∧
      ((given .fault draining).held = [] ∧ draining.phase = .draining ∧ draining.shutCaller = some 3) := by
  decide

/-- Each phase, for the statements with a clause for each: INIT, SHUTDOWN, TS_ENABLE, TS_DISABLE, STATUS_READ, STATUS_CLEAR and
RX_POLL. -/
theorem witness_phases :
    cold.phase = .uninit ∧ idle.phase = .idle ∧ (polling idle).phase = .exchanging ∧ draining.phase = .draining ∧
      { idle with phase := .stopped }.phase = .stopped ∧
      { idle with phase := .failed, fatalCause := .linkStalled }.phase = .failed ∧
      (0x0F1F#16 &&& 0xF0E0#16 = 0#16) ∧ (0x1000#16 &&& 0xF0E0#16 ≠ 0#16) := by
  decide

theorem witness_RxPollTakesTheOldestFrame :
    cold.phase = .uninit ∧ idle.phase ≠ .uninit ∧ idle.rxq = [] ∧ { idle with rxq := [⟨[1#8], true⟩] }.rxq = ⟨[1#8], true⟩ :: [] := by
  decide

/-- The three clauses, at the least and the largest count. -/
theorem witness_RegCommandIsSubmitted :
    (1 ≤ (1#8 : BitVec 8).toNat ∧ (128#8 : BitVec 8).toNat ≤ Config.maxRegs ∧ 1 ≤ [5#32].length) ∧
      (idle.phase = .idle ∧ idle.slot = none) ∧
      ((asking read1 idle).phase = .exchanging ∧ (asking read1 idle).slot ≠ none ∧
        (asking read1 idle).ctrlq.length < (asking read1 idle).par.ctrlqCap) ∧
      ({ idle with slot := some read1, ctrlq := [write1] }.slot ≠ none ∧ idle.par.ctrlqCap ≤ [write1].length) := by decide

theorem witness_PhaseRejectsRegAndTx :
    (1 ≤ (1#8 : BitVec 8).toNat ∧ 1 ≤ [5#32].length ∧ 1 ≤ [5#8].length ∧ [5#8].length ≤ cold.par.txMaxFrame) ∧
      cold.phase = .uninit ∧ draining.phase = .draining ∧
      ({ idle with phase := .failed, fatalCause := .linkStalled }.fatalCause = .linkStalled) ∧
      ({ idle with phase := .failed, fatalCause := .transportFault }.fatalCause = .transportFault) := by decide

/-- Each clause: the held command must wait, and one more of its caller and one of another come; there is room; the phase
rejects it with the slot and the queue full; and the oldest held descriptor is invalid. -/
theorem witness_HeldCommandWaitsForRoom :
    (holding.held = [⟨9, [0x10000003#32, 1#32]⟩] ∧ holding.MustHold [0x10000003#32, 1#32] ∧
        (∃ h ∈ holding.held, h.caller = 9) ∧ (given (.cmd 9 [0x40000000#32]) holding).inputs = [.cmd 9 [0x40000000#32]]) ∧
      (¬State.MustHold { holding with ctrlq := [] } [0x10000003#32, 1#32] ∧
        decode .command [0x10000003#32, 1#32] = .ok (.regRead 0#1 0#4 3#16 1#8)) ∧
      (¬holding.MustHold [0x10100001#32, 1#32] ∧ decode .command [0x10100001#32, 1#32] = .error .reservedField) ∧
      ((Instr.regRead 0#1 0#4 3#16 1#8).WellFormed ∧ { holding with phase := .draining }.phase = .draining ∧
        { holding with phase := .stopped }.phase = .stopped ∧
        { holding with phase := .failed, fatalCause := .linkStalled }.fatalCause = .linkStalled) :=
  ⟨⟨rfl, next_while_held (s := holding) rfl (.inl rfl) (by decide) (by decide) _ _ rfl, ⟨_, .head _, rfl⟩, rfl⟩,
    ⟨fun h => absurd (holds_iff.mpr h) (by decide), by decide⟩,
    ⟨fun h => absurd (holds_iff.mpr h) (by decide), by decide⟩, by decide⟩

theorem witness_ControlHeaderIsSent :
    (idle.phase = .idle ∧ { idle with slot := some read1 }.slot = some read1 ∧
        read1.hdr = 0#3 ++ 0#1 ++ 0#4 ++ 1#16 ++ 0#7 ++ 0#1) ∧
      ({ idle with slot := some write1 }.slot = some write1 ∧ write1.hdr = 1#3 ++ 0#1 ++ 1#4 ++ 0x24#16 ++ 0#7 ++ 1#1) := by
  decide

/-- The control exchange of `t` in flight, with the echo word `w` in the inbound string. -/
def echoed (t : Txn) (w : Word32) : State := arriving (zeros 4 ++ toBE32 w ++ zeros 4) (asking t idle)

theorem echoed_arrives (w : Word32) : (echoed read1 w).EchoArrives w := ⟨.inl rfl, rfl, rfl, rfl⟩

/-- In a running engine and in one that drains for caller 3. -/
theorem witness_MatchingEchoAnswersOk :
    ((echoed read1 0x00000100#32).fatalCause = .none ∧ (echoed read1 0x00000100#32).slot = some read1) ∧
      read1.Made (echoed read1 0x00000100#32).par ∧
      (read1.hdr = 0#1 ++ 0#1 ++ 0#1 ++ 0#1 ++ 0#4 ++ 1#16 ++ 0#7 ++ 0#1 ∧ read1.hdr ≠ 0#32) ∧
      (echoed read1 0x00000100#32).EchoArrives read1.hdr ∧
      State.EchoArrives { echoed read1 0x00000100#32 with phase := .draining, shutCaller := some 3 } read1.hdr :=
  ⟨by decide, read1_made, by decide, echoed_arrives _, .inr rfl, rfl, rfl, rfl⟩

theorem witness_MismatchingEchoFailsAtOnce :
    (0#1 ++ 0#1 ++ 0#1 ++ 0#1 ++ 0#4 ++ 2#16 ++ 0#7 ++ 0#1 : Word32) = 0x00000200#32 ∧
      parityOk .odd 0x00000200#32 = true ∧ 0x00000200#32 ≠ 0#32 ∧ 0x00000200#32 ≠ read1.hdr ∧
      (echoed read1 0x00000200#32).EchoArrives 0x00000200#32 ∧ read1.Made (echoed read1 0x00000200#32).par :=
  ⟨by decide, by decide, by decide, by decide, echoed_arrives _, read1_made⟩

theorem witness_ParityFailureIsRetriedUpToTheBound :
    (0#1 ++ 1#1 ++ 0#1 ++ 0#1 ++ 0#4 ++ 1#16 ++ 0#7 ++ 1#1 : Word32) = 0x40000101#32 ∧ 0x40000101#32 ≠ 0#32 ∧
      0x40000101#32 ≠ 0xFFFFFFFF#32 ∧ (echoed read1 0x40000101#32).slot = some read1 ∧
      (echoed read1 0x40000101#32).EchoArrives 0x40000101#32 ∧ parityOk .odd 0x00000101#32 = false :=
  ⟨by decide, by decide, by decide, by decide, echoed_arrives _, by decide⟩

theorem witness_NoReplyTimesOut :
    (echoed read1 0#32).EchoArrives 0#32 ∧ (echoed read1 0xFFFFFFFF#32).EchoArrives 0xFFFFFFFF#32 ∧
      (echoed read1 0#32).phase = .exchanging ∧ (echoed read1 0#32).slot = some read1 :=
  ⟨echoed_arrives _, echoed_arrives _, by decide, by decide⟩

theorem witness_ControlCompletionLeavesTheDataPath :
    Instr.ctrlEchoNoreply0.port = .ctrlIn ∧ (echoed read1 0#32).phase = .exchanging ∧
      (echoed read1 0#32).fatalCause = .none ∧ ∃ t, exec .ctrlEchoNoreply0 (echoed read1 0#32) = .next t :=
  ⟨rfl, rfl, rfl, _, rfl⟩

theorem witness_TxEnqueueAcceptsOrIsBusy :
    1 ≤ [5#8].length ∧ [5#8].length ≤ idle.par.txMaxFrame ∧ idle.phase = .idle ∧ idle.txq.length ≠ idle.par.txqCap ∧
      { idle with txq := [[5#8], [5#8]] }.txq.length = idle.par.txqCap := by decide

theorem witness_CreditPollIsSent :
    { idle with irqPending := true }.slot = none ∧ hasWork { idle with irqPending := true } = true ∧
      (txAvail { idle with irqPending := true } = true → idle.txc = 0#5) ∧
      txAvail { idle with txq := [[5#8]] } = true ∧ (0#1 : Bit) = (if idle.par.paritySense = .odd then 0#1 else 1#1) := by decide

/-- Vector CR2's one-byte frame from the queue (first and last chunk), and the last chunk of a frame in flight. -/
theorem witness_DataChunkIsSent :
    ({ idle with txc := 1#5, txq := [[0x77#8]] }.slot = none ∧ (1#5 : BitVec 5) ≠ 0#5 ∧
        { idle with txc := 1#5, txq := [[0x77#8]] }.txcur = none ∧ 1 = min idle.cfgW ([0x77#8].length - 0) ∧
        0 + 1 = [0x77#8].length ∧ parityOk idle.par.paritySense (dataWord 1#1 1#1 0#6 1#1) = true) ∧
      (2 = min idle.cfgW ((zeros 10).length - 8) ∧ 8 + 2 = (zeros 10).length ∧
        parityOk idle.par.paritySense (dataWord 0#1 1#1 1#6 1#1) = true) := by decide

/-- A credit poll in flight with the footer word `w` in the inbound string. -/
def polled (w : Word32) (s : State) : State := arriving (payload2 ++ toBE32 w) (polling s)

/-- The chunk 0x77 in flight with the footer word `w` in the inbound string. -/
def sent (w : Word32) : State := arriving (payload2 ++ toBE32 w) (sending { idle with syncSeen := true, txc := 1#5 })

theorem polled_arrives (w : Word32) (s : State) (h : s.cfgW = 8) : (polled w s).FooterArrives w := by
  refine ⟨.inl rfl, show XKind.poll ≠ .ctrl by decide, rfl, ?_⟩
  change memRead (payload2 ++ toBE32 w) s.cfgW 4 = toBE32 w
  rw [h]; rfl

theorem sent_arrives (w : Word32) : (sent w).FooterArrives w := ⟨.inl rfl, show XKind.data ≠ .ctrl by decide, rfl, rfl⟩

/-- Committed, `0x20000005` (SYNC, TXC=2), and rejected, `0x60000004` (HDRB, SYNC, TXC=2), of vector TX3; and committed by the
last-credit footer `0x20000000` (SYNC, TXC=0) of vector SE4. -/
theorem witness_ChunkIsCommittedOrRejected :
    (footerRow (decodeDataIn 0x20000005#32) = some (footerFields 0x20000005#32, 1#1) ∧
        footerWord (footerFields 0x20000005#32) 1#1 = 0x20000005#32 ∧ (sent 0x20000005#32).FooterArrives 0x20000005#32 ∧
        ValidFooter (sent 0x20000005#32) (footerFields 0x20000005#32) 1#1 ∧
        ¬((sent 0x20000005#32).syncSeen = true ∧ (footerFields 0x20000005#32).sync = 0#1) ∧
        (footerFields 0x20000005#32).hdrb = 0#1 ∧ NoStall (sent 0x20000005#32) (footerFields 0x20000005#32).txc) ∧
      (footerRow (decodeDataIn 0x60000004#32) = some (footerFields 0x60000004#32, 0#1) ∧
        (sent 0x60000004#32).FooterArrives 0x60000004#32 ∧
        ValidFooter (sent 0x60000004#32) (footerFields 0x60000004#32) 0#1 ∧
        (footerFields 0x60000004#32).hdrb = 1#1 ∧ NoStall (sent 0x60000004#32) (footerFields 0x60000004#32).txc) ∧
      (footerRow (decodeDataIn 0x20000000#32) = some (footerFields 0x20000000#32, 0#1) ∧
        (sent 0x20000000#32).FooterArrives 0x20000000#32 ∧
        ValidFooter (sent 0x20000000#32) (footerFields 0x20000000#32) 0#1 ∧ (footerFields 0x20000000#32).txc = 0#5 ∧
        NoStall (sent 0x20000000#32) (footerFields 0x20000000#32).txc) :=
  ⟨⟨by decide, by decide, sent_arrives _, by unfold ValidFooter; decide, by decide, by decide, by unfold NoStall; decide⟩,
    ⟨by decide, sent_arrives _, by unfold ValidFooter; decide, by decide, by unfold NoStall; decide⟩,
    by decide, sent_arrives _, by unfold ValidFooter; decide, by decide, by unfold NoStall; decide⟩

/-- A frame of 9 bytes at W = 8, two chunks, and of 16 bytes, where W divides the length. -/
theorem witness_SegmentationLaw :
    (1 ≤ 8 ∧ 1 ≤ (zeros 9).length ∧ 2 = ((zeros 9).length + 8 - 1) / 8 ∧ 1 < 2) ∧
      (2 = ((zeros 16).length + 8 - 1) / 8 ∧ (zeros 16).length % 8 = 0) := by decide

theorem witness_ValidFooterReplacesCredit :
    footerRow (decodeDataIn 0x20000006#32) = some (footerFields 0x20000006#32, 0#1) ∧
      (polled 0x20000006#32 idle).FooterArrives 0x20000006#32 ∧
      ValidFooter (polled 0x20000006#32 idle) (footerFields 0x20000006#32) 0#1 :=
  ⟨by decide, polled_arrives _ _ rfl, by unfold ValidFooter; decide⟩

/-- Wrong parity, and malformed at W = 8 (vector RX14). -/
theorem witness_InvalidFooterIsCountedAndTrustsNothing :
    (footerRow (decodeDataIn 0x2000003E#32) = some (footerFields 0x2000003E#32, 0#1) ∧
        (polled 0x2000003E#32 idle).FooterArrives 0x2000003E#32 ∧
        ¬ValidFooter (polled 0x2000003E#32 idle) (footerFields 0x2000003E#32) 0#1) ∧
      (footerRow (decodeDataIn 0x20324701#32) = some (footerFields 0x20324701#32, 1#1) ∧
        (polled 0x20324701#32 idle).FooterArrives 0x20324701#32 ∧
        ¬ValidFooter (polled 0x20324701#32 idle) (footerFields 0x20324701#32) 1#1) :=
  ⟨⟨by decide, polled_arrives _ _ rfl, by unfold ValidFooter; decide⟩,
    by decide, polled_arrives _ _ rfl, by unfold ValidFooter; decide⟩

/-- Vector CR3: an invalid footer after a data chunk; and after a poll while draining. -/
theorem witness_InvalidFooterCommitsTheChunk :
    (footerRow (decodeDataIn 0x2000003E#32) = some (footerFields 0x2000003E#32, 0#1) ∧
        (sent 0x2000003E#32).FooterArrives 0x2000003E#32 ∧
        ¬ValidFooter (sent 0x2000003E#32) (footerFields 0x2000003E#32) 0#1 ∧ (sent 0x2000003E#32).fatalCause = .none) ∧
      (State.FooterArrives { polled 0x2000003E#32 idle with phase := .draining } 0x2000003E#32 ∧
        ¬ValidFooter { polled 0x2000003E#32 idle with phase := .draining } (footerFields 0x2000003E#32) 0#1) :=
  ⟨⟨by decide, sent_arrives _, by unfold ValidFooter; decide, by decide⟩,
    ⟨.inr rfl, by decide, rfl, rfl⟩, by unfold ValidFooter; decide⟩

/-- Vector CR6. -/
theorem witness_SyncFallResetsBothDirections :
    footerRow (decodeDataIn 0x00200005#32) = some (footerFields 0x00200005#32, 1#1) ∧
      (sent 0x00200005#32).FooterArrives 0x00200005#32 ∧
      ValidFooter (sent 0x00200005#32) (footerFields 0x00200005#32) 1#1 ∧ (sent 0x00200005#32).syncSeen = true ∧
      (footerFields 0x00200005#32).sync = 0#1 ∧ (sent 0x00200005#32).fatalCause = .none :=
  ⟨by decide, sent_arrives _, by unfold ValidFooter; decide, by decide, by decide, by decide⟩

/-- The hypotheses of the five statements about the footer rows after a data exchange, and after one while draining: FTR_NODATA,
FTR_CONT, FTR_SOF, FTR_EOF and FTR_SOF_EOF with `RCA` or `TXC` chosen for parity. -/
theorem witness_footerRows_after_data :
    ((sent 0x20000005#32).FooterArrives 0x20000005#32 ∧
        ValidFooter (sent 0x20000005#32) (footerOf 0#1 0#1 0#1 (footerBitsOf 0x20000005#32)) 1#1 ∧
        SyncHeld (sent 0x20000005#32) (footerBitsOf 0x20000005#32)) ∧
      ((sent 0x20200001#32).FooterArrives 0x20200001#32 ∧
        ValidFooter (sent 0x20200001#32) (footerOf 1#1 0#1 0#1 (footerBitsOf 0x20200001#32)) 1#1 ∧
        SyncHeld (sent 0x20200001#32) (footerBitsOf 0x20200001#32) ∧ 1 ≤ (sent 0x20200001#32).cfgW) ∧
      ((sent 0x21310009#32).FooterArrives 0x21310009#32 ∧
        ValidFooter (sent 0x21310009#32) (footerOf 1#1 1#1 0#1 (footerBitsOf 0x21310009#32)) 1#1 ∧
        SyncHeld (sent 0x21310009#32) (footerBitsOf 0x21310009#32)) ∧
      ((sent 0x20204300#32).FooterArrives 0x20204300#32 ∧
        ValidFooter (sent 0x20204300#32) (footerOf 1#1 0#1 1#1 (footerBitsOf 0x20204300#32)) 0#1 ∧
        SyncHeld (sent 0x20204300#32) (footerBitsOf 0x20204300#32)) ∧
      ((sent 0x20314600#32).FooterArrives 0x20314600#32 ∧
        ValidFooter (sent 0x20314600#32) (footerOf 1#1 1#1 1#1 (footerBitsOf 0x20314600#32)) 0#1 ∧
        SyncHeld (sent 0x20314600#32) (footerBitsOf 0x20314600#32)) ∧
      (State.FooterArrives { sent 0x20204300#32 with phase := .draining, shutCaller := some 3 } 0x20204300#32 ∧
        SyncHeld { sent 0x20204300#32 with phase := .draining, shutCaller := some 3 } (footerBitsOf 0x20204300#32)) :=
  ⟨⟨sent_arrives _, by unfold ValidFooter; decide, by unfold SyncHeld; decide⟩,
    ⟨sent_arrives _, by unfold ValidFooter; decide, by unfold SyncHeld; decide, by decide⟩,
    ⟨sent_arrives _, by unfold ValidFooter; decide, by unfold SyncHeld; decide⟩,
    ⟨sent_arrives _, by unfold ValidFooter; decide, by unfold SyncHeld; decide⟩,
    ⟨sent_arrives _, by unfold ValidFooter; decide, by unfold SyncHeld; decide⟩,
    ⟨.inr rfl, by decide, rfl, rfl⟩, by unfold SyncHeld; decide⟩

/-- Without and with the frame-drop flag (vector RX7). -/
theorem witness_FooterWithoutData :
    (footerWord (footerOf 0#1 0#1 0#1 (footerBitsOf 0x20008002#32)) (footerBitsOf 0x20008002#32).p = 0x20008002#32 ∧
        (polled 0x20008002#32 (assembling idle)).FooterArrives 0x20008002#32 ∧
        ValidFooter (polled 0x20008002#32 (assembling idle)) (footerOf 0#1 0#1 0#1 (footerBitsOf 0x20008002#32)) 0#1 ∧
        SyncHeld (polled 0x20008002#32 (assembling idle)) (footerBitsOf 0x20008002#32) ∧
        (footerBitsOf 0x20008002#32).fd = 1#1) ∧
      (SyncHeld (polled 0x20000000#32 idle) (footerBitsOf 0x20000000#32) ∧ (footerBitsOf 0x20000000#32).fd = 0#1) :=
  ⟨⟨by decide, polled_arrives _ _ rfl, by unfold ValidFooter; decide, by unfold SyncHeld; decide, by decide⟩,
    by unfold SyncHeld; decide, by decide⟩

/-- With and without a frame in progress (vector RX4), and with the frame-drop flag (RX11). -/
theorem witness_ContinuationExtendsTheFrame :
    footerWord (footerOf 1#1 0#1 0#1 (footerBitsOf 0x20200001#32)) (footerBitsOf 0x20200001#32).p = 0x20200001#32 ∧
      (polled 0x20200001#32 (assembling idle)).FooterArrives 0x20200001#32 ∧
      ValidFooter (polled 0x20200001#32 (assembling idle)) (footerOf 1#1 0#1 0#1 (footerBitsOf 0x20200001#32)) 1#1 ∧
      SyncHeld (polled 0x20200001#32 (assembling idle)) (footerBitsOf 0x20200001#32) ∧
      1 ≤ (polled 0x20200001#32 (assembling idle)).cfgW ∧ (polled 0x20200001#32 idle).rxst = .idle ∧
      SyncHeld (polled 0x20208000#32 (assembling idle)) (footerBitsOf 0x20208000#32) ∧
      (footerBitsOf 0x20208000#32).fd = 1#1 :=
  ⟨by decide, polled_arrives _ _ rfl, by unfold ValidFooter; decide, by unfold SyncHeld; decide, by decide, by decide,
    by unfold SyncHeld; decide, by decide⟩

/-- A start at byte 4, the last start that W = 8 admits (vector P3), eligible and with zero-alignment not. -/
theorem witness_StartOfFrameBeginsAFrame :
    footerWord (footerOf 1#1 1#1 0#1 (footerBitsOf 0x21310009#32)) (footerBitsOf 0x21310009#32).p = 0x21310009#32 ∧
      (polled 0x21310009#32 idle).FooterArrives 0x21310009#32 ∧
      ValidFooter (polled 0x21310009#32 idle) (footerOf 1#1 1#1 0#1 (footerBitsOf 0x21310009#32)) 1#1 ∧
      SyncHeld (polled 0x21310009#32 idle) (footerBitsOf 0x21310009#32) ∧
      ({ idle with cfgZa := true }.cfgZa = true ∧ (footerBitsOf 0x21310009#32).swo ≠ 0#4) :=
  ⟨by decide, polled_arrives _ _ rfl, by unfold ValidFooter; decide, by unfold SyncHeld; decide, by decide⟩

/-- An end at byte 7, the last byte of W = 8, with the frame-drop flag (vector SE6), and an end that delivers (RX17). -/
theorem witness_EndOfFrameDeliversTheFrame :
    footerWord (footerOf 1#1 0#1 1#1 (footerBitsOf 0x2020C700#32)) (footerBitsOf 0x2020C700#32).p = 0x2020C700#32 ∧
      (polled 0x2020C700#32 (assembling idle)).FooterArrives 0x2020C700#32 ∧
      ValidFooter (polled 0x2020C700#32 (assembling idle)) (footerOf 1#1 0#1 1#1 (footerBitsOf 0x2020C700#32)) 0#1 ∧
      SyncHeld (polled 0x2020C700#32 (assembling idle)) (footerBitsOf 0x2020C700#32) ∧
      SyncHeld (polled 0x20204300#32 (assembling idle)) (footerBitsOf 0x20204300#32) :=
  ⟨by decide, polled_arrives _ _ rfl, by unfold ValidFooter; decide, by unfold SyncHeld; decide,
    by unfold SyncHeld; decide⟩

/-- The two clauses: start byte 4 at or before end byte 4 and 6 (the boundary, and vector RX2), and start byte 4 after end
byte 1 and 3 (vector RX5, and the boundary). -/
theorem witness_StartAndEndInOneChunk :
    (footerWord (footerOf 1#1 1#1 1#1 (footerBitsOf 0x20314600#32)) (footerBitsOf 0x20314600#32).p = 0x20314600#32 ∧
        (polled 0x20314600#32 idle).FooterArrives 0x20314600#32 ∧
        ValidFooter (polled 0x20314600#32 idle) (footerOf 1#1 1#1 1#1 (footerBitsOf 0x20314600#32)) 0#1 ∧
        SyncHeld (polled 0x20314600#32 idle) (footerBitsOf 0x20314600#32) ∧
        4 * (footerBitsOf 0x20314600#32).swo.toNat ≤ (footerBitsOf 0x20314600#32).ebo.toNat) ∧
      (ValidFooter (polled 0x20314400#32 idle) (footerOf 1#1 1#1 1#1 (footerBitsOf 0x20314400#32)) 1#1 ∧
        4 * (footerBitsOf 0x20314400#32).swo.toNat = (footerBitsOf 0x20314400#32).ebo.toNat) ∧
      (footerWord (footerOf 1#1 1#1 1#1 (footerBitsOf 0x21314100#32)) (footerBitsOf 0x21314100#32).p = 0x21314100#32 ∧
        (polled 0x21314100#32 (assembling idle)).FooterArrives 0x21314100#32 ∧
        ValidFooter (polled 0x21314100#32 (assembling idle)) (footerOf 1#1 1#1 1#1 (footerBitsOf 0x21314100#32)) 0#1 ∧
        SyncHeld (polled 0x21314100#32 (assembling idle)) (footerBitsOf 0x21314100#32) ∧
        (footerBitsOf 0x21314100#32).ebo.toNat < 4 * (footerBitsOf 0x21314100#32).swo.toNat) ∧
      (ValidFooter (polled 0x20314300#32 idle) (footerOf 1#1 1#1 1#1 (footerBitsOf 0x20314300#32)) 0#1 ∧
        (footerBitsOf 0x20314300#32).ebo.toNat + 1 = 4 * (footerBitsOf 0x20314300#32).swo.toNat) :=
  ⟨⟨by decide, polled_arrives _ _ rfl, by unfold ValidFooter; decide, by unfold SyncHeld; decide, by decide⟩,
    ⟨by unfold ValidFooter; decide, by decide⟩,
    ⟨by decide, polled_arrives _ _ rfl, by unfold ValidFooter; decide, by unfold SyncHeld; decide, by decide⟩,
    by unfold ValidFooter; decide, by decide⟩

/-- An engine of vector P5 after the third zero-credit poll, with a frame queued. -/
def waitingForCredit : State := { idle with txq := [[0x55#8]], stallPolls := 3 }

/-- The third zero-credit poll of vector P5 completes: with a valid footer, with an invalid one, and with one whose sync flag
falls; and a data chunk completes with a valid and with an invalid footer. -/
theorem witness_ZeroCreditPollsStallTheLink :
    (footerRow (decodeDataIn 0x20000000#32) = some (footerFields 0x20000000#32, 0#1) ∧
        (polled 0x20000000#32 waitingForCredit).FooterArrives 0x20000000#32 ∧
        ValidFooter (polled 0x20000000#32 waitingForCredit) (footerFields 0x20000000#32) 0#1 ∧
        (footerFields 0x20000000#32).txc = 0#5 ∧ waitingForCredit.txq ≠ [] ∧ waitingForCredit.par.stallPollMax ≤ 3 ∧
        ¬(waitingForCredit.syncSeen = true ∧ (footerFields 0x20000000#32).sync = 0#1)) ∧
      ((polled 0x2000003E#32 waitingForCredit).FooterArrives 0x2000003E#32 ∧
        ¬ValidFooter (polled 0x2000003E#32 waitingForCredit) (footerFields 0x2000003E#32) 0#1 ∧
        waitingForCredit.txc = 0#5) ∧
      ((polled 0x00000001#32 { waitingForCredit with syncSeen := true }).FooterArrives 0x00000001#32 ∧
        ValidFooter (polled 0x00000001#32 { waitingForCredit with syncSeen := true }) (footerFields 0x00000001#32) 1#1 ∧
        (footerFields 0x00000001#32).sync = 0#1) ∧
      ((sent 0x20000000#32).FooterArrives 0x20000000#32 ∧
        ValidFooter (sent 0x20000000#32) (footerFields 0x20000000#32) 0#1 ∧ (sent 0x20000000#32).phase = .exchanging) ∧
      (sent 0x2000003E#32).FooterArrives 0x2000003E#32 ∧
        ¬ValidFooter (sent 0x2000003E#32) (footerFields 0x2000003E#32) 0#1 :=
  ⟨⟨by decide, polled_arrives _ _ rfl, by unfold ValidFooter; decide, by decide, by decide, by decide, by decide⟩,
    ⟨polled_arrives _ _ rfl, by unfold ValidFooter; decide, by decide⟩,
    ⟨polled_arrives _ _ rfl, by unfold ValidFooter; decide, by decide⟩,
    ⟨sent_arrives _, by unfold ValidFooter; decide, by decide⟩, sent_arrives _, by unfold ValidFooter; decide⟩

/-- A drain that ends on a control exchange and on a poll. -/
theorem witness_DrainEndsStopped :
    (Instr.ctrlEchoNoreply0.port = .ctrlIn ∧
        (∃ t, exec .ctrlEchoNoreply0 { echoed read1 0#32 with phase := .draining, shutCaller := some 3 } = .next t) ∧
        RxClean { echoed read1 0#32 with phase := .draining, shutCaller := some 3 }) ∧
      ((decodeDataIn 0x20000000#32).port = .dataIn ∧ draining.phase = .draining ∧ draining.shutCaller = some 3 ∧
        ∃ t, exec (decodeDataIn 0x20000000#32) (arriving (zeros 8 ++ toBE32 0x20000000#32) draining) = .next t) :=
  ⟨⟨rfl, ⟨_, rfl⟩, by unfold RxClean; decide⟩, rfl, rfl, rfl, _, rfl⟩

/-- Vector P4 step 8: the read's echo arrives while the engine drains for caller 3, with a frame queued. -/
theorem witness_MatchingEchoIsAnsweredBeforeTheTeardown :
    ({ echoed read1 0x00000100#32 with phase := .draining, shutCaller := some 3, txq := [[0x41#8]] }.slot = some read1 ∧
        read1.hdr = 0#1 ++ 0#1 ++ 0#1 ++ 0#1 ++ 0#4 ++ 1#16 ++ 0#7 ++ 0#1 ∧ read1.hdr ≠ 0#32) ∧ read1.Made idle.par ∧
      State.EchoArrives { echoed read1 0x00000100#32 with phase := .draining, shutCaller := some 3, txq := [[0x41#8]] }
        read1.hdr :=
  ⟨by decide, read1_made, .inr rfl, rfl, rfl, rfl⟩

theorem witness_IdleAfterOnePoll :
    footerRow (decodeDataIn 0x20000000#32) = some (footerFields 0x20000000#32, 0#1) ∧
      (polled 0x20000000#32 idle).FooterArrives 0x20000000#32 ∧
      ValidFooter (polled 0x20000000#32 idle) (footerFields 0x20000000#32) 0#1 ∧
      ((polled 0x20000000#32 idle).slot = none ∧ txAvail (polled 0x20000000#32 idle) = false ∧
        (polled 0x20000000#32 idle).irqPending = false ∧ (footerFields 0x20000000#32).rca = 0#5) :=
  ⟨by decide, polled_arrives _ _ rfl, by unfold ValidFooter; decide, by decide⟩

/-- The step that starts a data chunk, from a state of the invariant (EveryStepKeepsTheInvariant, DataChunkNeedsCredit,
HistoryOnlyGrows, PhaseChangesOnlyAsListed, EveryCommandIsAnsweredOnce, TransmitFramesAreKeptInOrder). -/
theorem witness_invariant_step : (given .issue { idle with txc := 1#5, txq := [[0x77#8]] }).Inv ∧
    idle.phase ≠ .uninit ∧ ∃ t, step (given .issue { idle with txc := 1#5, txq := [[0x77#8]] }) = .next t :=
  ⟨State.inv_of_check (by decide), by decide, _, rfl⟩

/-- A step that accepts a frame, and one that delivers a received frame (TransmitFramesAreKeptInOrder, ReceiveOrderIsKept). -/
theorem witness_frames_move :
    ((given (.cmd 7 [0x20000000#32, 1#32, 0x77000000#32]) idle).Inv ∧
        ∃ t, step (given (.cmd 7 [0x20000000#32, 1#32, 0x77000000#32]) idle) = .next t) ∧
      ((given (.complete (payload2 ++ toBE32 0x20204300#32)) (polling (assembling idle))).Inv ∧
        ∃ t, step (given (.complete (payload2 ++ toBE32 0x20204300#32)) (polling (assembling idle))) = .next t) :=
  ⟨⟨State.inv_of_check (by decide), _, rfl⟩, State.inv_of_check (by decide), _, rfl⟩

theorem witness_PowerOnValuesAreNeverRead :
    (given (.cmd 7 [0x01000003#32]) cold).phase = .uninit ∧ ∃ t, step (given (.cmd 7 [0x01000003#32]) cold) = .next t :=
  ⟨rfl, _, rfl⟩

/-- The step that sends the slot's transaction, and the step that ends its exchange with a retry
(OneControlTransactionAtATime, TransactionIsAnsweredWithinTheBound). -/
theorem witness_control_steps :
    ((given .issue { idle with slot := some read1 }).Inv ∧
        ∃ t, step (given .issue { idle with slot := some read1 }) = .next t ∧ t.xkind = .ctrl) ∧
      ((given (.complete (zeros 12)) (asking read1 idle)).Inv ∧ (asking read1 idle).xkind = .ctrl ∧
        (asking read1 idle).slot = some read1 ∧
        ∃ t, step (given (.complete (zeros 12)) (asking read1 idle)) = .next t ∧ t.slot = some { read1 with nrep := 1 }) :=
  ⟨⟨State.inv_of_check (by decide), _, rfl, rfl⟩, State.inv_of_check (by decide), rfl, rfl, _, rfl, rfl⟩

end Sys2Proof.Tests
end

/-! PROOFS of the family 10_state.md: the power-on state, the frame of every operation on the history and the parameters, and
the simulation that shows that no step before INIT reads an unspecified element. -/

namespace Sys2Proof.Machine

/-! ### The history grows and the parameters stay, operation by operation (10_state.md R49, 00_scope.md R11) -/

/-- The history of `t` extends that of `s`, and `t` has the parameters of `s`. -/
def State.GrowsTo (s t : State) : Prop := (∃ l, t.history = s.history ++ l) ∧ t.par = s.par

theorem State.GrowsTo.of_same {s t : State} (hh : t.history = s.history) (hp : t.par = s.par) : s.GrowsTo t :=
  ⟨⟨[], by rw [hh, List.append_nil]⟩, hp⟩

theorem State.GrowsTo.refl (s : State) : s.GrowsTo s := .of_same rfl rfl

theorem State.GrowsTo.trans {s t u : State} (h1 : s.GrowsTo t) (h2 : t.GrowsTo u) : s.GrowsTo u := by
  obtain ⟨⟨l1, hl1⟩, hp1⟩ := h1
  obtain ⟨⟨l2, hl2⟩, hp2⟩ := h2
  exact ⟨⟨l1 ++ l2, by rw [hl2, hl1, List.append_assoc]⟩, hp2.trans hp1⟩

theorem emit_grows (s : State) (e : Indication) : s.GrowsTo (s.emit e) := ⟨⟨[e], rfl⟩, rfl⟩

theorem respond_grows (s : State) (c : Caller) (opc : BitVec 8) (code : Status) (data : List Word32) :
    s.GrowsTo (s.respond c opc code data) := emit_grows s _

theorem answer_grows (s : State) (opc : BitVec 8) (code : Status) (data : List Word32) :
    s.GrowsTo (s.answer opc code data) := respond_grows s _ opc code data

theorem RxWrites.grows {s t : State} (h : RxWrites s t) : s.GrowsTo t := by
  obtain ⟨_, _, _, _, _, frames, rfl⟩ := h
  exact ⟨⟨_, rfl⟩, rfl⟩

theorem TxWrites.grows {s t : State} (h : TxWrites s t) : s.GrowsTo t := by
  obtain ⟨_, _, released, rfl, -, -⟩ := h
  exact ⟨⟨released, rfl⟩, rfl⟩

theorem tornDown_grows (s : State) : s.GrowsTo s.tornDown := ⟨⟨_, List.append_assoc _ _ _⟩, rfl⟩

theorem teardown_grows (s : State) : s.GrowsTo (teardown s) := teardown_eq s ▸ tornDown_grows s

theorem enterFailed_grows (s : State) : s.GrowsTo (enterFailed s) := by
  rw [enterFailed_eq]
  exact ⟨⟨_, List.append_assoc _ _ _⟩, rfl⟩

theorem finishDrain_grows (s : State) : s.GrowsTo (finishDrain s) := by
  rw [finishDrain_eq]
  exact (tornDown_grows s).trans ⟨⟨_, rfl⟩, rfl⟩

theorem finishExchange_grows (s : State) : s.GrowsTo (finishExchange s) := by
  rcases finishExchange_cases s with ⟨-, h⟩ | ⟨-, -, h⟩ | ⟨-, -, h⟩
  · rw [h]; exact finishDrain_grows (clearExchange s)
  · rw [h]; exact enterFailed_grows (clearExchange s)
  · rw [h]; exact .of_same rfl rfl

theorem startExchange_grows (kind : XKind) (out : List Byte) (len : Nat) (s : State) :
    s.GrowsTo (startExchange kind out len s) := ⟨⟨[.xferReq out], rfl⟩, rfl⟩

theorem wake_grows (s : State) : s.GrowsTo (wake s) := by
  unfold wake
  split
  · exact .of_same rfl rfl
  · exact .refl s

theorem xferFault_grows (s : State) : s.GrowsTo (xferFault s) := by
  unfold xferFault
  split
  · exact (emit_grows s _).trans (finishDrain_grows (clearExchange (s.emit .xferFault)))
  · exact (emit_grows s .xferFault).trans (enterFailed_grows _)

/-! #### Completed exchanges -/

theorem slotNext_grows (s : State) : s.GrowsTo (slotNext s) := by
  rw [slotNext_eq]
  exact .of_same rfl rfl

theorem ctrlReply_grows (w : Word32) (a : Txn) (s : State) : s.GrowsTo (ctrlReply w a s) := by
  unfold ctrlReply
  split
  · exact (respond_grows s _ _ _ _).trans (slotNext_grows _)
  · exact (respond_grows s _ _ _ _).trans (slotNext_grows _)
  · unfold ctrlParity
    split
    · exact (respond_grows s _ _ _ _).trans (slotNext_grows _)
    · exact .of_same rfl rfl
  · unfold ctrlNoReply
    split
    · exact (respond_grows s a.caller a.op.opc .deviceUnreachable []).trans (slotNext_grows _)
    · exact .of_same rfl rfl

theorem syncEdge_grows (f : Footer) (s : State) : s.GrowsTo (syncEdge f s) := by
  unfold syncEdge
  split
  · exact (rxDiscard_writes true { s with stUnsync := true }).grows.trans (txRestart_writes _).grows
  · exact .of_same rfl rfl

theorem validFooter_grows (f : Footer) {rx : State → State} (hrx : ∀ u, RxWrites u (rx u)) (s : State) :
    s.GrowsTo (validFooter f rx s) := by
  have hedge : s.GrowsTo (syncEdge f (latchFooterFlags f (creditReplace f s))) := syncEdge_grows f _
  unfold validFooter
  split
  · exact hedge
  · exact (hedge.trans (txSide_writes f _).grows).trans (hrx _).grows

theorem invalidFooter_grows (s : State) : s.GrowsTo (invalidFooter s) := by
  have hdrop : s.GrowsTo (rxDiscard true (footerError s)) := (rxDiscard_writes true (footerError s)).grows
  unfold invalidFooter
  split
  · exact hdrop.trans (txCommit_writes _).grows
  · exact hdrop

theorem stallCheck_grows (s : State) : s.GrowsTo (stallCheck s) := by
  rw [stallCheck_eq]
  exact .of_same rfl rfl

theorem dataComplete_grows (r : FooterResult) {rx : State → State} (hrx : ∀ u, RxWrites u (rx u)) (s : State) :
    s.GrowsTo (dataComplete r rx s) := by
  cases r with
  | valid f => exact (validFooter_grows f hrx s).trans (stallCheck_grows _)
  | parity => exact (invalidFooter_grows s).trans (stallCheck_grows _)
  | malformed => exact (invalidFooter_grows s).trans (stallCheck_grows _)

/-! #### Instructions -/

theorem regCommand_grows (a : Txn) (d : List Word32) (s : State) : s.GrowsTo (regCommand a d s) := by
  unfold regCommand
  split
  · exact answer_grows s _ _ _
  · split
    · exact answer_grows s _ _ _
    · unfold submitCtrl
      split_ifs <;> exact .of_same rfl rfl

theorem execTxEnqueue_grows {frame : List Byte} {s t : State} (h : execTxEnqueue frame s = .next t) : s.GrowsTo t := by
  unfold execTxEnqueue at h
  split at h
  · cases h; exact answer_grows s _ _ _
  · split at h
    · cases h; exact answer_grows s _ _ _
    · split at h
      · cases h; exact answer_grows s _ _ _
      · cases h; exact answer_grows { s with txq := s.txq ++ [frame], freshWake := true } _ _ _

theorem execRxPoll_grows {s t : State} (h : execRxPoll s = .next t) : s.GrowsTo t := by
  unfold execRxPoll at h
  split at h
  · cases h; exact answer_grows s _ _ _
  · split at h
    · cases h; exact answer_grows s _ _ _
    · cases h; exact answer_grows { s with rxq := _ } _ _ _

theorem execInit_grows {tscap za : Bit} {wcode : BitVec 2} {s t : State} (h : execInit tscap za wcode s = .next t) :
    s.GrowsTo t := by
  unfold execInit at h
  split at h
  · cases h; exact answer_grows (initState tscap za wcode s) _ _ _
  · cases h; exact answer_grows s _ _ _

theorem execShutdown_grows {s t : State} (h : execShutdown s = .next t) : s.GrowsTo t := by
  unfold execShutdown at h
  cases hp : s.phase <;> rw [hp] at h <;> cases h
  case idle | failed =>
    exact (teardown_grows s).trans (answer_grows { teardown s with phase := .stopped } opcShutdown .ok [])
  case exchanging => exact .of_same rfl rfl
  all_goals exact answer_grows s _ _ _

theorem execTsEnable_grows {s t : State} (h : execTsEnable s = .next t) : s.GrowsTo t := by
  unfold execTsEnable at h
  split_ifs at h <;> cases h
  case neg => exact answer_grows { s with tsEn := true } _ _ _
  all_goals exact answer_grows s _ _ _

theorem execTsDisable_grows {s t : State} (h : execTsDisable s = .next t) : s.GrowsTo t := by
  unfold execTsDisable at h
  split_ifs at h <;> cases h
  case neg => exact answer_grows { s with tsEn := false } _ _ _
  all_goals exact answer_grows s _ _ _

theorem execStatusRead_grows {s t : State} (h : execStatusRead s = .next t) : s.GrowsTo t := by
  unfold execStatusRead at h
  split at h <;> cases h <;> exact answer_grows s _ _ _

theorem execStatusClear_grows {mask : BitVec 16} {s t : State} (h : execStatusClear mask s = .next t) : s.GrowsTo t := by
  unfold execStatusClear at h
  split_ifs at h <;> cases h
  case neg => exact answer_grows (clearStatus mask s) _ _ _
  all_goals exact answer_grows s _ _ _

theorem exec_command_grows {i : Instr} {s t : State} (hp : i.port = .command) (h : exec i s = .next t) : s.GrowsTo t := by
  cases i <;> try cases hp
  case init => exact execInit_grows h
  case shutdown => exact execShutdown_grows h
  case regRead => cases h; exact regCommand_grows _ _ s
  case regWrite => cases h; exact regCommand_grows _ _ s
  case txEnqueue => exact execTxEnqueue_grows h
  case rxPoll => exact execRxPoll_grows h
  case tsEnable => exact execTsEnable_grows h
  case tsDisable => exact execTsDisable_grows h
  case statusRead => exact execStatusRead_grows h
  case statusClear => exact execStatusClear_grows h

theorem exec_outbound_grows {i : Instr} {s t : State} (hp : i.port = .outbound) (h : exec i s = .next t) :
    s.GrowsTo t := by
  cases i <;> try cases hp
  case ctrlHdrRd | ctrlHdrWr =>
    obtain ⟨a, -, -, rfl⟩ := issueCtrl_next.mp h
    exact startExchange_grows _ _ _ s
  case dataPoll =>
    obtain ⟨-, rfl⟩ := execDataPoll_next.mp h
    exact startExchange_grows _ _ _ (clearWake { s with stallPolls := _ })
  case dataHdr =>
    obtain ⟨c, q, -, -, rfl⟩ := execDataHdr_next.mp h
    exact startExchange_grows _ _ _ (clearWake { s with txcur := some c, txq := q, txc := s.txc - 1#5 })

theorem exec_ctrlIn_grows {i : Instr} {s t : State} (hp : i.port = .ctrlIn) (h : exec i s = .next t) : s.GrowsTo t := by
  rw [exec_ctrlIn hp] at h
  obtain ⟨-, a, -, rfl⟩ := completeCtrl_next.mp h
  exact ((emit_grows s _).trans (ctrlReply_grows _ a _)).trans (finishExchange_grows _)

theorem exec_dataIn_grows {i : Instr} {s t : State} (hp : i.port = .dataIn) (h : exec i s = .next t) : s.GrowsTo t := by
  obtain ⟨f, p, hf⟩ := footerRow_of_port hp
  rw [exec_footerRow hf] at h
  obtain ⟨-, rfl⟩ := completeData_next.mp h
  exact ((emit_grows s _).trans (dataComplete_grows _ (rxChunk_writes f _) _)).trans (finishExchange_grows _)

theorem exec_grows {i : Instr} {s t : State} (h : exec i s = .next t) : s.GrowsTo t := by
  cases hp : i.port with
  | command => exact exec_command_grows hp h
  | outbound => exact exec_outbound_grows hp h
  | ctrlIn => exact exec_ctrlIn_grows hp h
  | dataIn => exact exec_dataIn_grows hp h

theorem CommandTaken.grows {s s0 : State} {c : Caller} {d : List Word32} (h : CommandTaken s c d s0) : s.GrowsTo s0 := by
  cases h with
  | brought rest hi h0 => subst h0; exact .of_same rfl rfl
  | held rest hh hr h0 => subst h0; exact .of_same rfl rfl

theorem TurnTaken.grows {s s0 : State} (h : TurnTaken s s0) : s.GrowsTo s0 := by
  cases h with
  | given rest hi h0 => subst h0; exact .of_same rfl rfl
  | free hi h0 => subst h0; exact .refl _

theorem step_grows {s t : State} (h : step s = .next t) : s.GrowsTo t := by
  cases step_next_cases h with
  | command c d s0 i ht hd he => exact ht.grows.trans (exec_grows (s := { s0 with portCaller := c }) he)
  | invalid c d s0 e ht hd he => subst he; exact ht.grows.trans (respond_grows s0 _ _ _ _)
  | queued c d rest hi he => subst he; exact .of_same rfl rfl
  | wake rest hi he => subst he; exact wake_grows { s with inputs := rest }
  | idle s0 ht hw he => subst he; exact ht.grows
  | issue s0 w i ht hw hd he => exact ht.grows.trans (exec_grows he)
  | complete bytes rest i hi hl hd he => exact exec_grows (s := { s with inputs := rest, xin := bytes }) he
  | fault rest hi hp he => subst he; exact xferFault_grows { s with inputs := rest }

/-! ### Before INIT: the step sees the power-on view alone (10_state.md R54, 70_reset_and_hazards.md R420, R421) -/

@[simp] theorem powerOnView_held (s : State) : s.powerOnView.held = s.held := rfl

/-- The simulation on what is fetched before INIT: from a state and from its power-on view, the same command in a state and in
its view, or the same change of both, or the same stop. -/
inductive FetchedAlike : Fetched → Fetched → Prop
  | run (i : Instr) (u : State) (hi : i.port = .command) (hu : u.phase = .uninit) :
      FetchedAlike (.run i u) (.run i u.powerOnView)
  | done (u : State) (hu : u.phase = .uninit) : FetchedAlike (.done u) (.done u.powerOnView)
  | stop (e : Fault) : FetchedAlike (.stop e) (.stop e)

theorem inFlight_of_uninit {s : State} (h : s.phase = .uninit) : inFlight s = false := by
  simp [inFlight, h]

theorem not_mustHold_of_uninit {s : State} (h : s.phase = .uninit) (d : List Word32) : ¬s.MustHold d := by
  rintro ⟨_, -, -, -, hp, -⟩
  simp [h] at hp

theorem wake_of_uninit {s : State} (h : s.phase = .uninit) : wake s = s := by
  simp [wake, h]

theorem fetchIssue_of_uninit {s : State} (h : s.phase = .uninit) : fetchIssue s = .done s :=
  fetchIssue_none (scheduledHeader_none_iff.mpr (.inl (by simp [h])))

theorem fetchInbound_of_uninit {s : State} (h : s.phase = .uninit) (bytes : List Byte) :
    fetchInbound bytes s = .stop .noExchange := by
  rw [fetchInbound, if_pos (inFlight_of_uninit h)]

theorem fetchCmd_alike (c : Caller) (d : List Word32) {s : State} (h : s.phase = .uninit) :
    FetchedAlike (fetchCmd c d s) (fetchCmd c d s.powerOnView) := by
  unfold fetchCmd
  cases hd : decode .command d with
  | ok i => exact .run i { s with portCaller := c } (decode_command_port hd) h
  | error e => exact .done (s.respond c (responseOpcode d) .invalid []) h

theorem fetchIssue_alike {s : State} (h : s.phase = .uninit) : FetchedAlike (fetchIssue s) (fetchIssue s.powerOnView) := by
  rw [fetchIssue_of_uninit h, fetchIssue_of_uninit (s := s.powerOnView) h]
  exact .done s h

theorem fetchEvent_alike (e : Event) {s : State} (h : s.phase = .uninit) :
    FetchedAlike (fetchEvent e s) (fetchEvent e s.powerOnView) := by
  have hv : s.powerOnView.phase = .uninit := h
  cases e with
  | cmd c d =>
    by_cases hq : s.held.any (fun x => x.caller == c) = true
    · have hqView : s.powerOnView.held.any (fun x => x.caller == c) = true := hq
      simp only [fetchEvent, if_pos hq, if_pos hqView]
      exact .done { s with held := s.held ++ [{ caller := c, words := d }] } h
    · have hqView : ¬s.powerOnView.held.any (fun x => x.caller == c) = true := hq
      simp only [fetchEvent, if_neg hq, if_neg hqView]
      exact fetchCmd_alike c d h
  | wake =>
    simp only [fetchEvent, wake_of_uninit h, wake_of_uninit hv]
    exact .done s h
  | issue => exact fetchIssue_alike h
  | complete bytes =>
    simp only [fetchEvent, fetchInbound_of_uninit h, fetchInbound_of_uninit hv]
    exact .stop _
  | fault =>
    simp only [fetchEvent, inFlight_of_uninit h, inFlight_of_uninit hv]
    exact .stop _

theorem fetchInput_alike {s : State} (h : s.phase = .uninit) : FetchedAlike (fetchInput s) (fetchInput s.powerOnView) := by
  cases hi : s.inputs with
  | nil =>
    rw [fetchInput_nil hi, fetchInput_nil (s := s.powerOnView) hi]
    exact fetchIssue_alike h
  | cons e rest =>
    rw [fetchInput_cons hi, fetchInput_cons (s := s.powerOnView) hi]
    exact fetchEvent_alike e (s := { s with inputs := rest }) h

theorem fetch_alike {s : State} (h : s.phase = .uninit) : FetchedAlike (fetch s) (fetch s.powerOnView) := by
  have accepts : ∀ (u : State) (d : List Word32), u.phase = .uninit → ¬holds d u = true :=
    fun u d hu => mt holds_iff.mp (not_mustHold_of_uninit hu d)
  unfold fetch
  rw [powerOnView_held]
  cases hh : s.held with
  | nil => exact fetchInput_alike h
  | cons x rest =>
    simp only [if_neg (accepts s x.words h), if_neg (accepts s.powerOnView x.words h)]
    exact fetchCmd_alike x.caller x.words (s := { s with held := rest }) h

/-- What the step may answer from the power-on view when it answers `r`: the view of the same next state, or after an INIT that
next state itself. -/
def ResultAlike (r rView : Result) : Prop :=
  ∀ t, r = .next t → (t.phase = .uninit ∧ rView = .next t.powerOnView) ∨ (t.phase = .idle ∧ rView = .next t)

theorem execInit_of_uninit (tscap za : Bit) (wcode : BitVec 2) {s : State} (h : s.phase = .uninit) :
    execInit tscap za wcode s = .next ((initState tscap za wcode s).answer opcInit .ok []) := by
  rw [execInit, if_pos (.inl h)]

/-- INIT overwrites every unspecified element (10_state.md R55). -/
theorem initState_powerOnView (tscap za : Bit) (wcode : BitVec 2) (s : State) :
    initState tscap za wcode s.powerOnView = initState tscap za wcode s := rfl

theorem regCommand_of_uninit (a : Txn) (d : List Word32) {s : State} (h : s.phase = .uninit) :
    regCommand a d s = s.answer a.op.opc (if countOk a.n = false then .invalid else .notInitialized) [] := by
  unfold regCommand phaseReject
  rw [h]
  split_ifs <;> rfl

theorem execRegRead_of_uninit (aid : Bit) (mms : BitVec 4) (addr : BitVec 16) (count : BitVec 8) {s : State}
    (h : s.phase = .uninit) :
    execRegRead aid mms addr count s =
      .next (s.answer opcRegRead (if countOk count.toNat = false then .invalid else .notInitialized) []) := by
  rw [execRegRead, regCommand_of_uninit _ _ h]
  rfl

theorem execRegWrite_of_uninit (aid : Bit) (mms : BitVec 4) (addr : BitVec 16) (vals : List Word32) {s : State}
    (h : s.phase = .uninit) :
    execRegWrite aid mms addr vals s =
      .next (s.answer opcRegWrite (if countOk vals.length = false then .invalid else .notInitialized) []) := by
  rw [execRegWrite, regCommand_of_uninit _ _ h]
  rfl

theorem execTxEnqueue_of_uninit (frame : List Byte) {s : State} (h : s.phase = .uninit) :
    execTxEnqueue frame s =
      .next (s.answer opcTxEnqueue (if frameLenOk s.par frame.length = false then .invalid else .notInitialized) []) := by
  unfold execTxEnqueue phaseReject
  rw [h]
  split_ifs <;> rfl

theorem execStatusClear_of_uninit (mask : BitVec 16) {s : State} (h : s.phase = .uninit) :
    execStatusClear mask s =
      .next (s.answer opcStatusClear (if maskOk mask = false then .invalid else .notInitialized) []) := by
  unfold execStatusClear
  rw [if_pos h]
  split_ifs <;> rfl

/-- Before INIT every other command is answered without data, by a code that its operands and the parameters decide, and
changes nothing else (45_lifecycle_status.md R360, R361). -/
theorem exec_command_of_uninit {i : Instr} (hi : i.port = .command) (hn : ∀ tscap za wcode, i ≠ .init tscap za wcode)
    (par : Params) :
    ∃ opc code, ∀ s : State, s.phase = .uninit → s.par = par → exec i s = .next (s.answer opc code []) := by
  cases i <;> try cases hi
  case init tscap za wcode => exact absurd rfl (hn tscap za wcode)
  case shutdown => exact ⟨opcShutdown, .notInitialized, fun s h _ => by simp only [exec, execShutdown, h]⟩
  case regRead aid mms addr count => exact ⟨_, _, fun s h _ => execRegRead_of_uninit aid mms addr count h⟩
  case regWrite aid mms addr vals => exact ⟨_, _, fun s h _ => execRegWrite_of_uninit aid mms addr vals h⟩
  case txEnqueue frame => exact ⟨_, _, fun s h hp => hp ▸ execTxEnqueue_of_uninit frame h⟩
  case rxPoll => exact ⟨opcRxPoll, .notInitialized, fun s h _ => if_pos h⟩
  case tsEnable => exact ⟨opcTsEnable, .notInitialized, fun s h _ => if_pos h⟩
  case tsDisable => exact ⟨opcTsDisable, .notInitialized, fun s h _ => if_pos h⟩
  case statusRead => exact ⟨opcStatusRead, .notInitialized, fun s h _ => if_pos h⟩
  case statusClear mask => exact ⟨_, _, fun s h _ => execStatusClear_of_uninit mask h⟩

theorem exec_alike {i : Instr} {s : State} (hi : i.port = .command) (h : s.phase = .uninit) :
    ResultAlike (exec i s) (exec i s.powerOnView) := by
  intro t ht
  by_cases hn : ∃ tscap za wcode, i = .init tscap za wcode
  · obtain ⟨tscap, za, wcode, rfl⟩ := hn
    have hInit : t = (initState tscap za wcode s).answer opcInit .ok [] := by
      rw [exec, execInit_of_uninit tscap za wcode h] at ht
      cases ht
      rfl
    refine .inr ⟨by rw [hInit]; rfl, ?_⟩
    rw [exec, execInit_of_uninit tscap za wcode (s := s.powerOnView) h, initState_powerOnView, hInit]
  · have hn' : ∀ tscap za wcode, i ≠ .init tscap za wcode := fun a b c e => hn ⟨a, b, c, e⟩
    obtain ⟨opc, code, hexec⟩ := exec_command_of_uninit hi hn' s.par
    rw [hexec s h rfl] at ht
    cases ht
    exact .inl ⟨h, hexec s.powerOnView h rfl⟩

theorem runFetched_alike {f fView : Fetched} (h : FetchedAlike f fView) : ResultAlike (runFetched f) (runFetched fView) := by
  cases h with
  | run i u hi hu => exact exec_alike hi hu
  | done u hu => intro t ht; cases ht; exact .inl ⟨hu, rfl⟩
  | stop e => intro t ht; cases ht

/-! ### The obligations -/

/-- Settles O50, by the Boolean test of the invariant at reset. -/
theorem resetSatisfiesTheInvariant : Obligations.ResetSatisfiesTheInvariant :=
  ⟨rfl, State.inv_of_check (by decide)⟩

/-- Settles O54, by the cases of a step and what each operation adds to the history. -/
theorem historyOnlyGrows : Obligations.HistoryOnlyGrows := fun _ _ h => step_grows h

/-- Settles O52, by a simulation between a state before INIT and its power-on view: both fetch alike, and what is fetched runs
alike. -/
theorem powerOnValuesAreNeverRead : Obligations.PowerOnValuesAreNeverRead :=
  fun _ t hu hs => runFetched_alike (fetch_alike hu) t hs

end Sys2Proof.Machine

/-! PROOFS of the family 20_memory.md: what a step keeps for the agents around the engine. The open commands of a caller with
its answers, the transmit frames released with those held, and the received frames announced with those queued are each one
sum or list that every operation keeps, and that a command alone extends. -/

namespace Sys2Proof.Machine

/-! ### The three readings of a history -/

@[simp] theorem answersTo_append (c : Caller) (h l : List Indication) :
    answersTo c (h ++ l) = answersTo c h + answersTo c l := List.countP_append

@[simp] theorem releasedFrames_append (h l : List Indication) :
    releasedFrames (h ++ l) = releasedFrames h ++ releasedFrames l := List.filterMap_append

@[simp] theorem indicatedFrames_append (h l : List Indication) :
    indicatedFrames (h ++ l) = indicatedFrames h ++ indicatedFrames l := List.filterMap_append

@[simp] theorem answersTo_respondInd (c c' : Caller) (opc : BitVec 8) (code : Status) (data : List Word32) :
    answersTo c [respondInd c' opc code data] = if c' = c then 1 else 0 := by
  simp [answersTo, respondInd, List.countP_cons]

@[simp] theorem releasedFrames_respondInd (c : Caller) (opc : BitVec 8) (code : Status) (data : List Word32) :
    releasedFrames [respondInd c opc code data] = [] := rfl

@[simp] theorem indicatedFrames_respondInd (c : Caller) (opc : BitVec 8) (code : Status) (data : List Word32) :
    indicatedFrames [respondInd c opc code data] = [] := rfl

/-- An indication that is no response, releases no transmit frame and delivers no received frame. -/
def Indication.Silent (e : Indication) : Prop :=
  (∀ c, answersTo c [e] = 0) ∧ releasedFrames [e] = [] ∧ indicatedFrames [e] = []

theorem xferReq_silent (bytes : List Byte) : (Indication.xferReq bytes).Silent := ⟨fun _ => rfl, rfl, rfl⟩

theorem xferIn_silent (bytes : List Byte) : (Indication.xferIn bytes).Silent := ⟨fun _ => rfl, rfl, rfl⟩

theorem xferFault_silent : Indication.xferFault.Silent := ⟨fun _ => rfl, rfl, rfl⟩

theorem fatal_silent (cause : FatalCause) : (Indication.fatal cause).Silent := ⟨fun _ => rfl, rfl, rfl⟩

section Answers
variable (code : Status) (txns : List Txn)

/-- One answer to each transaction of a list is one answer to `c` for each of its own. -/
@[simp] theorem answersTo_map_respondInd (c : Caller) :
    answersTo c (txns.map (fun t => respondInd t.caller t.op.opc code [])) = txns.countP (fun t => t.caller == c) :=
  List.countP_map

@[simp] theorem releasedFrames_map_respondInd :
    releasedFrames (txns.map (fun t => respondInd t.caller t.op.opc code [])) = [] := by
  simp [releasedFrames, respondInd]

@[simp] theorem indicatedFrames_map_respondInd :
    indicatedFrames (txns.map (fun t => respondInd t.caller t.op.opc code [])) = [] := by
  simp [indicatedFrames, respondInd]

end Answers

@[simp] theorem answersTo_map_undelivered (c : Caller) (frames : List (List Byte)) :
    answersTo c (frames.map .txUndelivered) = 0 := by
  simp [answersTo]

@[simp] theorem releasedFrames_map_undelivered (frames : List (List Byte)) :
    releasedFrames (frames.map .txUndelivered) = frames := by
  simp [releasedFrames, List.filterMap_map]

@[simp] theorem indicatedFrames_map_undelivered (frames : List (List Byte)) :
    indicatedFrames (frames.map .txUndelivered) = [] := by
  simp [indicatedFrames]

@[simp] theorem answersTo_map_rxFrame (c : Caller) (frames : List RxFrame) :
    answersTo c (frames.map (fun f => .rxFrame f.bytes f.ts)) = 0 := by
  simp [answersTo]

@[simp] theorem releasedFrames_map_rxFrame (frames : List RxFrame) :
    releasedFrames (frames.map (fun f => .rxFrame f.bytes f.ts)) = [] := by
  simp [releasedFrames]

@[simp] theorem indicatedFrames_map_rxFrame (frames : List RxFrame) :
    indicatedFrames (frames.map (fun f => .rxFrame f.bytes f.ts)) = frames := by
  simp [indicatedFrames, List.filterMap_map]

/-! ### What every operation but a command keeps -/

/-- The event is a command of caller `c`. -/
def Event.isCommandOf (c : Caller) : Event → Bool
  | .cmd c' _ => c' == c
  | _ => false

/-- The open commands of caller `c` outside the engine: those it has still to bring and those that the port holds. -/
def outsideOpen (c : Caller) (s : State) : Nat :=
  s.inputs.countP (Event.isCommandOf c) + s.held.countP (fun h => h.caller == c)

/-- The open commands of caller `c` in the engine: its pending transactions and its SHUTDOWN that waits. -/
def engineOpen (c : Caller) (s : State) : Nat :=
  (pendingTxns s).countP (fun t => t.caller == c) + s.shutCaller.toList.countP (fun c' => c' == c)

theorem openCommands_eq (c : Caller) (s : State) :
    openCommands c s = outsideOpen c s + if s.phase = .uninit then 0 else engineOpen c s := rfl

/-- `t` owes each caller what `s` owes it, `t` has released and holds the transmit frames of `s` in the same order, and `t` has
announced and queued the received frames `l` after those of `s`. The agents around the engine have not moved. -/
structure Conserves (l : List RxFrame) (s t : State) : Prop where
  started : t.phase = .uninit → s.phase = .uninit
  inputs : t.inputs = s.inputs
  held : t.held = s.held
  owed : ∀ c, answersTo c t.history + engineOpen c t = answersTo c s.history + engineOpen c s
  frames : releasedFrames t.history ++ heldFrames t = releasedFrames s.history ++ heldFrames s
  announced : indicatedFrames t.history = indicatedFrames s.history ++ l
  queued : t.rxq = s.rxq ++ l

/-- The elements of the state that `Conserves` reads, but for the phase. -/
def State.books (s : State) :=
  (s.inputs, s.held, s.history, s.slot, s.ctrlq, s.shutCaller, s.txcur, s.txq, s.rxq)

namespace Conserves
variable {s t u : State} {l l1 l2 : List RxFrame}

theorem of_books (hp : t.phase = .uninit → s.phase = .uninit) (h : t.books = s.books) : Conserves [] s t := by
  simp only [State.books, Prod.mk.injEq] at h
  obtain ⟨hin, hheld, hhist, hslot, hctrlq, hshut, hcur, htxq, hrxq⟩ := h
  refine ⟨hp, hin, hheld, fun c => ?_, ?_, ?_, ?_⟩ <;> simp [engineOpen, pendingTxns, heldFrames, *]

theorem refl (s : State) : Conserves [] s s := of_books id rfl

theorem trans (h1 : Conserves l1 s t) (h2 : Conserves l2 t u) : Conserves (l1 ++ l2) s u where
  started h := h1.started (h2.started h)
  inputs := h2.inputs.trans h1.inputs
  held := h2.held.trans h1.held
  owed c := (h2.owed c).trans (h1.owed c)
  frames := h2.frames.trans h1.frames
  announced := by rw [h2.announced, h1.announced, List.append_assoc]
  queued := by rw [h2.queued, h1.queued, List.append_assoc]

/-- An operation that delivers nothing, before one that may. -/
theorem before (h1 : Conserves [] s t) (h2 : Conserves l t u) : Conserves l s u := h1.trans h2

/-- An operation that delivers nothing, after one that may. -/
theorem thenKeeps (h1 : Conserves l s t) (h2 : Conserves [] t u) : Conserves l s u :=
  List.append_nil l ▸ h1.trans h2

end Conserves

theorem emit_conserves (s : State) {e : Indication} (he : e.Silent) : Conserves [] s (s.emit e) := by
  obtain ⟨hans, hrel, hind⟩ := he
  constructor <;> simp [engineOpen, pendingTxns, heldFrames, hans, hrel, hind]

/-! #### The receive side (43_data_framer.md R270 to R279) -/

theorem RxWrites.conserves {s t : State} (h : RxWrites s t) : ∃ l, Conserves l s t := by
  obtain ⟨_, _, _, _, _, frames, rfl⟩ := h
  refine ⟨frames, id, rfl, rfl, fun c => ?_, ?_, ?_, rfl⟩ <;> simp [engineOpen, pendingTxns, heldFrames]

theorem rxDiscard_rxq (count : Bool) (s : State) : (rxDiscard count s).rxq = s.rxq := by
  rw [rxDiscard_eq]

theorem rxAppend_rxq (bytes : List Byte) (s : State) : (rxAppend bytes s).rxq = s.rxq := by
  unfold rxAppend
  split
  · exact rxDiscard_rxq true s
  · rfl

theorem rxStart_rxq (bytes : List Byte) (rtsa : Bit) (s : State) : (rxStart bytes rtsa s).rxq = s.rxq :=
  rxAppend_rxq bytes _

theorem rxDiscard_conserves (count : Bool) (s : State) : Conserves [] s (rxDiscard count s) := by
  obtain ⟨l, hl⟩ := (rxDiscard_writes count s).conserves
  have hnil : l = [] := by simpa [rxDiscard_rxq] using hl.queued
  exact hnil ▸ hl

theorem rxFinishIfAsm_rxq_le (s : State) : (rxFinishIfAsm s).rxq.length ≤ s.rxq.length + 1 := by
  unfold rxFinishIfAsm rxFinish
  split_ifs <;> simp

theorem rxNoData_rxq (b : FooterBits) (s : State) : (rxNoData b s).rxq = s.rxq := by
  unfold rxNoData
  split_ifs
  · exact rxDiscard_rxq true s
  · rfl

theorem rxContinue_rxq (b : FooterBits) (payload : List Byte) (s : State) : (rxContinue b payload s).rxq = s.rxq := by
  unfold rxContinue
  split_ifs
  · exact rxDiscard_rxq true s
  · exact rxAppend_rxq _ s
  · rfl

theorem rxBegin_rxq (b : FooterBits) (payload : List Byte) (s : State) : (rxBegin b payload s).rxq = s.rxq := by
  simp only [rxBegin, apply_ite State.rxq, rxStart_rxq, rxDiscard_rxq, ite_self]

theorem rxEnd_rxq_le (b : FooterBits) (payload : List Byte) (s : State) :
    (rxEnd b payload s).rxq.length ≤ s.rxq.length + 1 := by
  unfold rxEnd
  split_ifs
  · simp [rxDiscard_rxq]
  · simpa only [rxAppend_rxq] using rxFinishIfAsm_rxq_le (rxAppend (bytesFromTo payload 0 (endByte b)) s)
  · exact Nat.le_succ _

theorem rxWhole_rxq_le (b : FooterBits) (payload : List Byte) (s : State) :
    (rxWhole b payload s).rxq.length ≤ s.rxq.length + 1 := by
  simp only [rxWhole]
  split_ifs
  · simp [rxDiscard_rxq]
  · simp [rxDiscard_rxq]
  · simpa only [rxStart_rxq, rxDiscard_rxq] using
      rxFinishIfAsm_rxq_le (rxStart (bytesFromTo payload (startByte b) (endByte b)) b.rtsa (rxDiscard true s))

/-- The new frame after an ended one is started and not finished. -/
theorem rxEndThenStart_rxq (b : FooterBits) (payload : List Byte) (s : State) :
    (rxEndThenStart b payload s).rxq = (rxEnd b payload s).rxq := by
  simp only [rxEndThenStart, apply_ite State.rxq, rxStart_rxq, ite_self]

/-- Every footer's receive side is that of one of the five rows. -/
theorem rxChunk_row (f : Footer) : ∃ b, ∀ payload s,
    rxChunk f payload s = rxNoData b s ∨ rxChunk f payload s = rxContinue b payload s ∨
      rxChunk f payload s = rxEnd b payload s ∨ rxChunk f payload s = rxBegin b payload s ∨
      rxChunk f payload s = (if startByte b ≤ endByte b then rxWhole b payload s else rxEndThenStart b payload s) := by
  obtain ⟨b, hb⟩ : ∃ b, f = footerOf f.dv f.sv f.ev b :=
    ⟨⟨f.exst, f.hdrb, f.sync, f.rca, f.vs, f.swo, f.fd, f.ebo, f.rtsa, f.rtsp, f.txc, 0#1⟩, rfl⟩
  have bit : ∀ x : Bit, x = 0#1 ∨ x = 1#1 := by decide
  refine ⟨b, fun payload s => ?_⟩
  rw [hb]
  rcases bit f.dv with hd | hd
  · rw [hd]; exact .inl (rxChunk_noData _ _ b payload s)
  · rcases bit f.sv with hs | hs <;> rcases bit f.ev with he | he <;> rw [hd, hs, he]
    · exact .inr (.inl (rxChunk_continue b payload s))
    · exact .inr (.inr (.inl (rxChunk_end b payload s)))
    · exact .inr (.inr (.inr (.inl (rxChunk_begin b payload s))))
    · exact .inr (.inr (.inr (.inr (rxChunk_beginAndEnd b payload s))))

/-- A chunk completes one frame at most. -/
theorem rxChunk_rxq_le (f : Footer) (payload : List Byte) (s : State) :
    (rxChunk f payload s).rxq.length ≤ s.rxq.length + 1 := by
  obtain ⟨b, hrow⟩ := rxChunk_row f
  rcases hrow payload s with h | h | h | h | h <;> rw [h]
  · simp [rxNoData_rxq]
  · simp [rxContinue_rxq]
  · exact rxEnd_rxq_le b payload s
  · simp [rxBegin_rxq]
  · split
    · exact rxWhole_rxq_le b payload s
    · rw [rxEndThenStart_rxq]
      exact rxEnd_rxq_le b payload s

theorem rxChunk_conserves (f : Footer) (payload : List Byte) (s : State) :
    ∃ l, l.length ≤ 1 ∧ Conserves l s (rxChunk f payload s) := by
  obtain ⟨l, hl⟩ := (rxChunk_writes f payload s).conserves
  refine ⟨l, ?_, hl⟩
  have hle := rxChunk_rxq_le f payload s
  rw [hl.queued, List.length_append] at hle
  omega

/-! #### Teardown, failure and the end of an exchange (44_transfer_scheduler.md R318, R321 to R324) -/

/-- Every pending transaction is answered, and none is left. -/
theorem failPending_conserves (code : Status) (s : State) : Conserves [] s (failPending code s) where
  started := id
  inputs := rfl
  held := rfl
  owed c := by
    rw [failPending_history, answersTo_append, answersTo_map_respondInd]
    simp [engineOpen, pendingTxns, Nat.add_assoc]
  frames := by simp [heldFrames]
  announced := by simp
  queued := by simp

/-- Every transmit frame is released in transmit order, and none is held. -/
theorem releaseFrames_conserves (s : State) : Conserves [] s (releaseFrames s) where
  started := id
  inputs := rfl
  held := rfl
  owed c := by simp [engineOpen, pendingTxns]
  frames := by
    have hnone : heldFrames (releaseFrames s) = [] := rfl
    simp [hnone]
  announced := by simp
  queued := by simp

theorem teardown_conserves (s : State) : Conserves [] s (teardown s) := by
  have hfail := (failPending_conserves .shutdown s).before (rxDiscard_conserves false _)
  exact (hfail.before (releaseFrames_conserves _)).before (.of_books id rfl)

theorem enterFailed_conserves (s : State) : Conserves [] s (enterFailed s) := by
  have hphase : Conserves [] s { s with phase := .failed } := .of_books nofun rfl
  have hemit := hphase.before (emit_conserves _ (fatal_silent s.fatalCause))
  exact (hemit.before (failPending_conserves _ _)).before (rxDiscard_conserves false _)

theorem answerShutdown_conserves (s : State) : Conserves [] s (answerShutdown s) := by
  rw [answerShutdown_eq]
  cases hc : s.shutCaller with
  | none => exact .of_books id (by simp [State.books, hc])
  | some c' =>
    refine ⟨id, rfl, rfl, fun c => ?_, ?_, ?_, ?_⟩
    · simp [engineOpen, pendingTxns, hc, List.countP_cons]
      omega
    all_goals simp [heldFrames]

theorem clearExchange_conserves (s : State) : Conserves [] s (clearExchange s) := .of_books id rfl

theorem finishDrain_conserves (s : State) : Conserves [] s (finishDrain s) := by
  have hstop : Conserves [] (teardown s) { teardown s with phase := .stopped } := .of_books nofun rfl
  exact ((teardown_conserves s).before hstop).before (answerShutdown_conserves _)

theorem finishExchange_conserves (s : State) : Conserves [] s (finishExchange s) := by
  have hclear := clearExchange_conserves s
  rcases finishExchange_cases s with ⟨-, h⟩ | ⟨-, -, h⟩ | ⟨-, -, h⟩ <;> rw [h]
  · exact hclear.before (finishDrain_conserves _)
  · exact hclear.before (enterFailed_conserves _)
  · exact .of_books nofun rfl

theorem wake_conserves (s : State) : Conserves [] s (wake s) := by
  unfold wake
  split
  · exact .of_books id rfl
  · exact .refl s

theorem xferFault_conserves (s : State) : Conserves [] s (xferFault s) := by
  have hemit := emit_conserves s xferFault_silent
  unfold xferFault
  split
  · exact (hemit.before (clearExchange_conserves _)).before (finishDrain_conserves _)
  · refine Conserves.before ?_ (enterFailed_conserves _)
    exact hemit.before (.of_books id rfl)

/-! #### Control exchanges (42_control_transactions.md R224, R228 to R231) -/

/-- The slot's transaction is answered and the next one moves up. -/
theorem slotNext_respond_conserves {s : State} {a : Txn} (ha : s.slot = some a) (opc : BitVec 8) (code : Status)
    (data : List Word32) : Conserves [] s (slotNext (s.respond a.caller opc code data)) := by
  rw [slotNext_eq]
  refine ⟨id, rfl, rfl, fun c => ?_, ?_, ?_, ?_⟩
  · cases hq : s.ctrlq <;> simp [engineOpen, pendingTxns, ha, hq, List.countP_cons] <;> omega
  all_goals simp [heldFrames]

/-- A retry counts in the slot and keeps the transaction's caller. -/
theorem slotRetry_conserves {s : State} {a b : Txn} (ha : s.slot = some a) (hb : b.caller = a.caller) :
    Conserves [] s { s with slot := some b } := by
  refine ⟨id, rfl, rfl, fun c => ?_, ?_, ?_, ?_⟩
  · simp [engineOpen, pendingTxns, ha, hb, List.countP_cons]
  all_goals simp [heldFrames]

theorem ctrlReply_conserves (w : Word32) {s : State} {a : Txn} (ha : s.slot = some a) :
    Conserves [] s (ctrlReply w a s) := by
  unfold ctrlReply
  split
  · exact slotNext_respond_conserves ha _ _ _
  · exact slotNext_respond_conserves ha _ _ _
  · unfold ctrlParity
    split
    · exact slotNext_respond_conserves ha _ _ _
    · exact slotRetry_conserves ha rfl
  · unfold ctrlNoReply
    split
    · have hflag : Conserves [] s { s with stUnreach := true } := .of_books id rfl
      exact hflag.before (slotNext_respond_conserves (s := { s with stUnreach := true }) ha _ _ _)
    · exact slotRetry_conserves ha rfl

/-! #### Data and poll exchanges: the transmit side (43_data_framer.md R261 to R266) -/

/-- The frame in flight is released. -/
theorem release_conserves {s : State} {c : TxCur} (hc : s.txcur = some c) {e : Indication} (abort : BitVec 32)
    (hans : ∀ c, answersTo c [e] = 0) (hrel : releasedFrames [e] = [c.frame]) (hind : indicatedFrames [e] = []) :
    Conserves [] s { s with txcur := none, cntTxAbort := abort, history := s.history ++ [e] } := by
  refine ⟨id, rfl, rfl, fun c => ?_, ?_, ?_, ?_⟩ <;>
    simp [engineOpen, pendingTxns, heldFrames, hc, hans, hrel, hind]

/-- The cursor of the frame in flight moves. -/
theorem moveCursor_conserves {s : State} {c c' : TxCur} (hc : s.txcur = some c) (hf : c'.frame = c.frame) :
    Conserves [] s { s with txcur := some c' } := by
  refine ⟨id, rfl, rfl, fun c => ?_, ?_, ?_, ?_⟩ <;> simp [engineOpen, pendingTxns, heldFrames, hc, hf]

theorem txCommit_conserves (s : State) : Conserves [] s (txCommit s) := by
  unfold txCommit
  cases hc : s.txcur with
  | none => exact .refl s
  | some c =>
    simp only
    split
    · exact release_conserves hc s.cntTxAbort (fun _ => rfl) rfl rfl
    · exact moveCursor_conserves hc rfl

theorem txReject_conserves (s : State) : Conserves [] s (txReject s) := by
  unfold txReject
  cases hc : s.txcur with
  | none => exact .refl s
  | some c =>
    simp only
    split
    · exact release_conserves hc _ (fun _ => rfl) rfl rfl
    · exact moveCursor_conserves hc rfl

theorem txRestart_conserves (s : State) : Conserves [] s (txRestart s) := by
  unfold txRestart
  cases hc : s.txcur with
  | none => exact .refl s
  | some c => exact moveCursor_conserves hc rfl

theorem txSide_conserves (f : Footer) (s : State) : Conserves [] s (txSide f s) := by
  unfold txSide
  split_ifs
  · exact txReject_conserves s
  · exact txCommit_conserves s
  · exact .refl s

/-- Loading the next frame moves it from the queue to the front, where it was in transmit order already. -/
theorem loadTxcur_frames {s : State} {c : TxCur} {q : List (List Byte)} (h : loadTxcur s = some (c, q)) :
    c.frame :: q = heldFrames s := by
  unfold loadTxcur at h
  cases hc : s.txcur with
  | some c' =>
    rw [hc] at h
    cases h
    simp [heldFrames, hc]
  | none =>
    cases hq : s.txq with
    | nil => simp [hc, hq] at h
    | cons f rest =>
      simp only [hc, hq, Option.some.injEq, Prod.mk.injEq] at h
      obtain ⟨rfl, rfl⟩ := h
      simp [heldFrames, hc, hq]

theorem startExchange_conserves (kind : XKind) (out : List Byte) (len : Nat) (s : State) :
    Conserves [] s (startExchange kind out len s) :=
  (emit_conserves s (xferReq_silent out)).before (.of_books nofun rfl)

theorem issueData_conserves {s : State} {c : TxCur} {q : List (List Byte)} (h : loadTxcur s = some (c, q)) :
    Conserves [] s (issueData c q s) := by
  have hload : Conserves [] s (clearWake { s with txcur := some c, txq := q, txc := s.txc - 1#5 }) := by
    refine ⟨id, rfl, rfl, fun c => rfl, ?_, ?_, ?_⟩
    · rw [← loadTxcur_frames h]
      simp [heldFrames]
    all_goals simp
  exact hload.before (startExchange_conserves _ _ _ _)

theorem issuePoll_conserves (s : State) : Conserves [] s (issuePoll s) := by
  have hwake : Conserves [] s (clearWake { s with stallPolls := if txAvail s then s.stallPolls + 1 else s.stallPolls }) :=
    .of_books id rfl
  exact hwake.before (startExchange_conserves _ _ _ _)

/-! #### Data and poll exchanges: the completion (44_transfer_scheduler.md R318, R319) -/

theorem syncEdge_conserves (f : Footer) (s : State) : Conserves [] s (syncEdge f s) := by
  unfold syncEdge
  split
  · have hflag : Conserves [] s { s with stUnsync := true } := .of_books id rfl
    have hrx := hflag.before (rxDiscard_conserves true _)
    exact (hrx.before (txRestart_conserves _)).before (.of_books id rfl)
  · exact .of_books id rfl

theorem stallCheck_conserves (s : State) : Conserves [] s (stallCheck s) := by
  rw [stallCheck_eq]
  exact .of_books id rfl

theorem invalidFooter_conserves (s : State) : Conserves [] s (invalidFooter s) := by
  have hcount : Conserves [] s (footerError s) := .of_books id rfl
  have hdrop := hcount.before (rxDiscard_conserves true _)
  unfold invalidFooter
  split
  · exact hdrop.before (txCommit_conserves _)
  · exact hdrop

theorem validFooter_conserves (g f : Footer) (payload : List Byte) (s : State) :
    ∃ l, l.length ≤ 1 ∧ Conserves l s (validFooter g (rxChunk f payload) s) := by
  have hcredit : Conserves [] s (latchFooterFlags g (creditReplace g s)) := .of_books id rfl
  have hedge := hcredit.before (syncEdge_conserves g _)
  unfold validFooter
  split
  · exact ⟨[], by simp, hedge⟩
  · obtain ⟨l, hlen, hrx⟩ := rxChunk_conserves f payload (txSide g (syncEdge g (latchFooterFlags g (creditReplace g s))))
    exact ⟨l, hlen, (hedge.before (txSide_conserves g _)).before hrx⟩

theorem dataComplete_conserves (r : FooterResult) (f : Footer) (payload : List Byte) (s : State) :
    ∃ l, l.length ≤ 1 ∧ Conserves l s (dataComplete r (rxChunk f payload) s) := by
  cases r with
  | valid g =>
    obtain ⟨l, hlen, hv⟩ := validFooter_conserves g f payload s
    exact ⟨l, hlen, hv.thenKeeps (stallCheck_conserves _)⟩
  | parity => exact ⟨[], by simp, (invalidFooter_conserves s).before (stallCheck_conserves _)⟩
  | malformed => exact ⟨[], by simp, (invalidFooter_conserves s).before (stallCheck_conserves _)⟩

theorem exec_outbound_conserves {i : Instr} {s t : State} (hp : i.port = .outbound) (h : exec i s = .next t) :
    Conserves [] s t := by
  cases i <;> try cases hp
  case ctrlHdrRd | ctrlHdrWr =>
    obtain ⟨a, -, -, rfl⟩ := issueCtrl_next.mp h
    exact startExchange_conserves _ _ _ s
  case dataPoll =>
    obtain ⟨-, rfl⟩ := execDataPoll_next.mp h
    exact issuePoll_conserves s
  case dataHdr =>
    obtain ⟨c, q, hload, -, rfl⟩ := execDataHdr_next.mp h
    exact issueData_conserves hload

theorem exec_ctrlIn_conserves {i : Instr} {s t : State} (hp : i.port = .ctrlIn) (h : exec i s = .next t) :
    Conserves [] s t := by
  rw [exec_ctrlIn hp] at h
  obtain ⟨-, a, ha, rfl⟩ := completeCtrl_next.mp h
  have hin := emit_conserves s (xferIn_silent s.xin)
  exact (hin.before (ctrlReply_conserves _ ha)).before (finishExchange_conserves _)

theorem exec_dataIn_conserves {i : Instr} {s t : State} (hp : i.port = .dataIn) (h : exec i s = .next t) :
    ∃ l, l.length ≤ 1 ∧ Conserves l s t := by
  obtain ⟨f, p, hf⟩ := footerRow_of_port hp
  rw [exec_footerRow hf] at h
  obtain ⟨-, rfl⟩ := completeData_next.mp h
  have hin := emit_conserves s (xferIn_silent s.xin)
  obtain ⟨l, hlen, hdata⟩ := dataComplete_conserves (decodeFooter s.par.paritySense s.cfgW (toBE32 (footerWord f p))) f
    (memRead s.xin 0 s.cfgW) (s.emit (.xferIn s.xin))
  exact ⟨l, hlen, (hin.before hdata).thenKeeps (finishExchange_conserves _)⟩

/-- An inbound word keeps what the engine owes, and delivers one frame at most. -/
theorem exec_inbound_conserves {i : Instr} {s t : State} (hp : i.port = .ctrlIn ∨ i.port = .dataIn)
    (h : exec i s = .next t) : ∃ l, l.length ≤ 1 ∧ Conserves l s t := by
  rcases hp with hp | hp
  · exact ⟨[], Nat.zero_le 1, exec_ctrlIn_conserves hp h⟩
  · exact exec_dataIn_conserves hp h

/-- An inbound word answers a next state only where an exchange is in flight. -/
theorem exec_inbound_phase {i : Instr} {s t : State} (hp : i.port = .ctrlIn ∨ i.port = .dataIn)
    (h : exec i s = .next t) : s.phase = .exchanging ∨ s.phase = .draining := by
  rcases hp with hp | hp
  · rw [exec_ctrlIn hp] at h
    exact (completeCtrl_next.mp h).1.1
  · obtain ⟨f, p, hf⟩ := footerRow_of_port hp
    rw [exec_footerRow hf] at h
    exact (completeData_next.mp h).1.1

/-! ### What a command does, case by case (45_lifecycle_status.md R350 to R355, R360) -/

/-- What a command that only answers may write before its answer: the timestamp mode and the sticky flags and counters
(45_lifecycle_status.md R352 to R355). -/
def StatusWrites (s u : State) : Prop :=
  ∃ tsEn unsync exst hdrb unreach ftrerr drop ovf err abort,
    u = { s with
      tsEn := tsEn, stUnsync := unsync, stExst := exst, stHdrb := hdrb, stUnreach := unreach, stFtrerr := ftrerr
      cntRxDrop := drop, cntRxOvf := ovf, cntFtrErr := err, cntTxAbort := abort }

theorem StatusWrites.refl (s : State) : StatusWrites s s := ⟨_, _, _, _, _, _, _, _, _, _, rfl⟩

theorem StatusWrites.conserves {s u : State} (h : StatusWrites s u) : Conserves [] s u := by
  obtain ⟨_, _, _, _, _, _, _, _, _, _, rfl⟩ := h
  exact .of_books id rfl

/-- The ways in which a command of the caller at the port answers a next state. -/
inductive CommandCase (s t : State) : Prop
  /-- it is answered, and at most the timestamp mode, flags and counters change -/
  | answered (u : State) (opc : BitVec 8) (code : Status) (data : List Word32) (hu : StatusWrites s u)
      (ht : t = u.answer opc code data)
  /-- TX_ENQUEUE is accepted -/
  | enqueued (frame : List Byte) (hp : s.phase = .idle ∨ s.phase = .exchanging)
      (ht : t = { s with txq := s.txq ++ [frame], freshWake := true }.answer opcTxEnqueue .ok [])
  /-- RX_POLL takes the oldest delivered frame -/
  | polled (f : RxFrame) (rest : List RxFrame) (hq : s.rxq = f :: rest)
      (ht : t = { s with rxq := rest }.answer opcRxPoll .ok (rxPollWords f))
  /-- INIT is accepted -/
  | initialized (tscap za : Bit) (wcode : BitVec 2) (hp : s.phase = .uninit ∨ s.phase = .stopped)
      (ht : t = (initState tscap za wcode s).answer opcInit .ok [])
  /-- SHUTDOWN stops the engine at once -/
  | stopped (hp : s.phase = .idle ∨ s.phase = .failed)
      (ht : t = { teardown s with phase := .stopped }.answer opcShutdown .ok [])
  /-- SHUTDOWN waits for the exchange in flight -/
  | draining (hp : s.phase = .exchanging) (ht : t = { s with phase := .draining, shutCaller := some s.portCaller })
  /-- a REG command takes the slot -/
  | slotted (a : Txn) (ha : a.caller = s.portCaller) (hp : s.phase = .idle ∨ s.phase = .exchanging) (hs : s.slot = none)
      (ht : t = { s with slot := some a, freshWake := true })
  /-- a REG command waits in the engine's queue -/
  | lined (a : Txn) (ha : a.caller = s.portCaller) (hp : s.phase = .idle ∨ s.phase = .exchanging) (hs : s.slot ≠ none)
      (ht : t = { s with ctrlq := s.ctrlq ++ [a], freshWake := true })
  /-- a REG command waits at the port -/
  | held (d : List Word32) (hp : s.phase = .idle ∨ s.phase = .exchanging) (hs : s.slot ≠ none)
      (ht : t = { s with held := s.held ++ [⟨s.portCaller, d⟩] })

/-- An answer that changes nothing else. -/
theorem CommandCase.only {s t : State} {opc : BitVec 8} {code : Status} {data : List Word32}
    (ht : t = s.answer opc code data) : CommandCase s t := .answered s opc code data (.refl s) ht

theorem phaseReject_none {s : State} (h : phaseReject s = none) : s.phase = .idle ∨ s.phase = .exchanging := by
  unfold phaseReject at h
  cases hp : s.phase <;> simp_all

theorem regCommand_case (a : Txn) (d : List Word32) {s : State} (ha : a.caller = s.portCaller) :
    CommandCase s (regCommand a d s) := by
  unfold regCommand
  split
  · exact .only rfl
  · split
    · exact .only rfl
    · rename_i hrej
      have hp := phaseReject_none hrej
      unfold submitCtrl
      split_ifs with hs hq
      · exact .slotted a ha hp hs rfl
      · exact .lined a ha hp hs rfl
      · exact .held d hp hs (by rw [ha])

theorem execTxEnqueue_case {frame : List Byte} {s t : State} (h : execTxEnqueue frame s = .next t) : CommandCase s t := by
  unfold execTxEnqueue at h
  split at h
  · cases h; exact .only rfl
  · split at h
    · cases h; exact .only rfl
    · rename_i hrej
      split at h <;> cases h
      · exact .only rfl
      · exact .enqueued frame (phaseReject_none hrej) rfl

theorem execRxPoll_case {s t : State} (h : execRxPoll s = .next t) : CommandCase s t := by
  unfold execRxPoll at h
  split at h
  · cases h; exact .only rfl
  · cases hq : s.rxq with
    | nil => rw [hq] at h; cases h; exact .only rfl
    | cons f rest => simp only [hq] at h; cases h; exact .polled f rest hq rfl

theorem execInit_case {tscap za : Bit} {wcode : BitVec 2} {s t : State} (h : execInit tscap za wcode s = .next t) :
    CommandCase s t := by
  unfold execInit at h
  split at h
  · rename_i hp; cases h; exact .initialized tscap za wcode hp rfl
  · cases h; exact .only rfl

theorem execShutdown_case {s t : State} (h : execShutdown s = .next t) : CommandCase s t := by
  unfold execShutdown at h
  cases hp : s.phase <;> rw [hp] at h <;> cases h
  case idle => exact .stopped (.inl hp) rfl
  case failed => exact .stopped (.inr hp) rfl
  case exchanging => exact .draining hp rfl
  all_goals exact .only rfl

theorem execTsEnable_case {s t : State} (h : execTsEnable s = .next t) : CommandCase s t := by
  unfold execTsEnable at h
  split_ifs at h <;> cases h
  case neg => exact .answered { s with tsEn := true } _ _ _ ⟨_, _, _, _, _, _, _, _, _, _, rfl⟩ rfl
  all_goals exact .only rfl

theorem execTsDisable_case {s t : State} (h : execTsDisable s = .next t) : CommandCase s t := by
  unfold execTsDisable at h
  split_ifs at h <;> cases h
  case neg => exact .answered { s with tsEn := false } _ _ _ ⟨_, _, _, _, _, _, _, _, _, _, rfl⟩ rfl
  all_goals exact .only rfl

theorem execStatusRead_case {s t : State} (h : execStatusRead s = .next t) : CommandCase s t := by
  unfold execStatusRead at h
  split at h <;> cases h <;> exact .only rfl

theorem execStatusClear_case {mask : BitVec 16} {s t : State} (h : execStatusClear mask s = .next t) : CommandCase s t := by
  unfold execStatusClear at h
  split_ifs at h <;> cases h
  case neg => exact .answered (clearStatus mask s) _ _ _ ⟨_, _, _, _, _, _, _, _, _, _, rfl⟩ rfl
  all_goals exact .only rfl

/-- What an accepted command does is one of the cases. -/
theorem exec_command_case {i : Instr} {s t : State} (hp : i.port = .command) (h : exec i s = .next t) :
    CommandCase s t := by
  cases i <;> try cases hp
  case init => exact execInit_case h
  case shutdown => exact execShutdown_case h
  case regRead => cases h; exact regCommand_case _ _ rfl
  case regWrite => cases h; exact regCommand_case _ _ rfl
  case txEnqueue => exact execTxEnqueue_case h
  case rxPoll => exact execRxPoll_case h
  case tsEnable => exact execTsEnable_case h
  case tsDisable => exact execTsDisable_case h
  case statusRead => exact execStatusRead_case h
  case statusClear => exact execStatusClear_case h

/-! ### What a step does: a command is taken, or the engine moves -/

/-- The invariant says nothing of what the agents hold. -/
theorem State.Inv.withAgents {s : State} (h : s.Inv) (inputs : List Event) (held : List Submission) (caller : Caller) :
    State.Inv { s with inputs := inputs, held := held, portCaller := caller } :=
  { h with outbound := { h.outbound with } }

/-- Taking a command changes what the agents hold alone: one command of its caller fewer. -/
theorem CommandTaken.fewer {s s0 : State} {c : Caller} {d : List Word32} (h : CommandTaken s c d s0) :
    ∃ inputs held, s0 = { s with inputs := inputs, held := held } ∧
      ∀ c', outsideOpen c' s = outsideOpen c' s0 + if c = c' then 1 else 0 := by
  cases h with
  | brought rest hi h0 =>
    subst h0
    refine ⟨rest, s.held, rfl, fun c' => ?_⟩
    simp [outsideOpen, hi, List.countP_cons, Event.isCommandOf]
    omega
  | held rest hh hr h0 =>
    subst h0
    refine ⟨s.inputs, rest, rfl, fun c' => ?_⟩
    simp [outsideOpen, hh, List.countP_cons]
    omega

/-- A step as its books see it: the port takes a command or puts it aside, or the engine moves. -/
inductive StepMove (s t : State) : Prop
  /-- a command runs -/
  | command (c : Caller) (inputs : List Event) (held : List Submission)
      (hout : ∀ c', outsideOpen c' s = outsideOpen c' { s with inputs := inputs, held := held } + if c = c' then 1 else 0)
      (hcase : CommandCase { s with inputs := inputs, held := held, portCaller := c } t)
  /-- an invalid descriptor is answered -/
  | invalid (c : Caller) (inputs : List Event) (held : List Submission) (opc : BitVec 8)
      (hout : ∀ c', outsideOpen c' s = outsideOpen c' { s with inputs := inputs, held := held } + if c = c' then 1 else 0)
      (ht : t = State.respond { s with inputs := inputs, held := held } c opc .invalid [])
  /-- a command waits at the port behind one of its caller -/
  | queued (inputs : List Event) (held : List Submission)
      (hout : ∀ c', outsideOpen c' { s with inputs := inputs, held := held } = outsideOpen c' s)
      (ht : t = { s with inputs := inputs, held := held })
  /-- the engine moves; before INIT it cannot -/
  | engine (inputs : List Event) (xin : List Byte) (l : List RxFrame)
      (hout : ∀ c', outsideOpen c' { s with inputs := inputs } = outsideOpen c' s) (hlen : l.length ≤ 1)
      (hmove : Conserves l { s with inputs := inputs, xin := xin } t)
      (hcold : s.phase = .uninit → t.phase = .uninit ∧ t.history = s.history)

/-- An event that is no command leaves the open commands outside the engine. -/
theorem outsideOpen_consume {s : State} {e : Event} {rest : List Event} (hi : s.inputs = e :: rest)
    (he : ∀ c, e.isCommandOf c = false) (c : Caller) : outsideOpen c { s with inputs := rest } = outsideOpen c s := by
  simp [outsideOpen, hi, he]

theorem TurnTaken.keeps {s s0 : State} (h : TurnTaken s s0) :
    ∃ inputs, s0 = { s with inputs := inputs } ∧ ∀ c, outsideOpen c { s with inputs := inputs } = outsideOpen c s := by
  cases h with
  | given rest hi h0 => exact ⟨rest, h0, outsideOpen_consume hi fun _ => rfl⟩
  | free hi h0 => exact ⟨s.inputs, h0, fun _ => rfl⟩

theorem inboundPort_inbound (s : State) : inboundPort s = .ctrlIn ∨ inboundPort s = .dataIn := by
  unfold inboundPort
  split
  · exact .inl rfl
  · exact .inr rfl

/-- Every step that answers a next state is one of the moves. -/
theorem step_move {s t : State} (h : step s = .next t) : StepMove s t := by
  cases step_next_cases h with
  | command c d s0 i ht hd he =>
    obtain ⟨inputs, held, rfl, hout⟩ := ht.fewer
    exact .command c inputs held hout (exec_command_case (decode_command_port hd) he)
  | invalid c d s0 e ht hd he =>
    obtain ⟨inputs, held, rfl, hout⟩ := ht.fewer
    exact .invalid c inputs held _ hout he
  | queued c d rest hi he =>
    refine .queued rest (s.held ++ [⟨c, d⟩]) (fun c' => ?_) he
    simp [outsideOpen, hi, List.countP_cons, Event.isCommandOf]
    omega
  | wake rest hi he =>
    subst he
    have hcold : s.phase = .uninit → wake { s with inputs := rest } = { s with inputs := rest } :=
      fun hu => wake_of_uninit hu
    exact .engine rest s.xin [] (outsideOpen_consume hi fun _ => rfl) (Nat.zero_le 1) (wake_conserves _)
      fun hu => by rw [hcold hu]; exact ⟨hu, rfl⟩
  | idle s0 ht hw he =>
    obtain ⟨inputs, rfl, hout⟩ := ht.keeps
    subst he
    exact .engine inputs s.xin [] hout (Nat.zero_le 1) (.refl _) fun hu => ⟨hu, rfl⟩
  | issue s0 w i ht hw hd he =>
    obtain ⟨inputs, rfl, hout⟩ := ht.keeps
    have hidle : s.phase = .idle := (scheduledHeader_some hw).1
    exact .engine inputs s.xin [] hout (Nat.zero_le 1) (exec_outbound_conserves (decode_outbound_port hd) he)
      fun hu => by rw [hidle] at hu; cases hu
  | complete bytes rest i hi hl hd he =>
    have hport := decode_inbound_port (inboundPort_inbound s) hd ▸ inboundPort_inbound s
    obtain ⟨l, hlen, hmove⟩ := exec_inbound_conserves hport he
    have hflight : s.phase = .exchanging ∨ s.phase = .draining :=
      exec_inbound_phase (s := { s with inputs := rest, xin := bytes }) hport he
    exact .engine rest bytes l (outsideOpen_consume hi fun _ => rfl) hlen hmove
      fun hu => by rw [hu] at hflight; simp at hflight
  | fault rest hi hp he =>
    subst he
    exact .engine rest s.xin [] (outsideOpen_consume hi fun _ => rfl) (Nat.zero_le 1) (xferFault_conserves _)
      fun hu => by rw [inFlight_of_uninit hu] at hp; cases hp

/-! ### Every command is answered once (20_memory.md R93) -/

/-- The answers to caller `c` so far with its commands that are still open. -/
def account (c : Caller) (s : State) : Nat := answersTo c s.history + openCommands c s

theorem account_eq (c : Caller) (s : State) :
    account c s = outsideOpen c s +
      (answersTo c s.history + if s.phase = .uninit then 0 else engineOpen c s) := by
  rw [account, openCommands_eq]
  omega

theorem account_of_started (c : Caller) {s : State} (h : s.phase ≠ .uninit) :
    account c s = outsideOpen c s + (answersTo c s.history + engineOpen c s) := by
  rw [account_eq, if_neg h]

theorem account_respond (c c' : Caller) (opc : BitVec 8) (code : Status) (data : List Word32) (s : State) :
    account c (s.respond c' opc code data) = account c s + if c' = c then 1 else 0 := by
  have hopen : openCommands c (s.respond c' opc code data) = openCommands c s := rfl
  rw [account, account, hopen, respond_history, answersTo_append, answersTo_respondInd]
  omega

theorem account_answer (c : Caller) (opc : BitVec 8) (code : Status) (data : List Word32) (s : State) :
    account c (s.answer opc code data) = account c s + if s.portCaller = c then 1 else 0 :=
  account_respond c s.portCaller opc code data s

theorem Conserves.outside {l : List RxFrame} {s t : State} (h : Conserves l s t) (c : Caller) :
    outsideOpen c t = outsideOpen c s := by
  rw [outsideOpen, outsideOpen, h.inputs, h.held]

theorem Conserves.account_eq {l : List RxFrame} {s t : State} (h : Conserves l s t) (hs : s.phase ≠ .uninit) (c : Caller) :
    account c t = account c s := by
  rw [account_of_started c hs, account_of_started c (mt h.started hs), h.outside, h.owed]

/-- INIT finds no open command in the engine, and leaves none. -/
theorem account_initState (tscap za : Bit) (wcode : BitVec 2) {s : State} (hi : s.Inv)
    (hp : s.phase = .uninit ∨ s.phase = .stopped) (c : Caller) : account c (initState tscap za wcode s) = account c s := by
  have hnone : engineOpen c (initState tscap za wcode s) = 0 := rfl
  have hout : outsideOpen c (initState tscap za wcode s) = outsideOpen c s := rfl
  have hhist : (initState tscap za wcode s).history = s.history := rfl
  rw [account_of_started c (s := initState tscap za wcode s) nofun, account_eq c s, hnone, hout, hhist]
  rcases hp with hp | hp
  · rw [if_pos hp]
  · have hslot := (hi.stopped hp).1
    have hshut : s.shutCaller = none := by
      simpa [hp] using mt hi.shutdown.mp
    simp [hp, engineOpen, pendingTxns, hslot, hi.slotFirst hslot, hshut]

/-- An operation that answers nothing and takes `n` commands of `c`. -/
theorem account_taken {s t : State} {c : Caller} {n : Nat} (hs : s.phase ≠ .uninit) (ht : t.phase ≠ .uninit)
    (hh : t.history = s.history) (hn : outsideOpen c t + engineOpen c t = outsideOpen c s + engineOpen c s + n) :
    account c t = account c s + n := by
  rw [account_of_started c hs, account_of_started c ht, hh]
  omega

theorem ne_uninit_of_running {s : State} (h : s.phase = .idle ∨ s.phase = .exchanging) : s.phase ≠ .uninit := by
  rcases h with h | h <;> simp [h]

/-- A command is answered, or it is one more open command of its caller. -/
theorem CommandCase.account_eq {s t : State} (h : CommandCase s t) (hi : s.Inv) (c : Caller) :
    account c t = account c s + if s.portCaller = c then 1 else 0 := by
  cases h with
  | answered u opc code data hu ht =>
    obtain ⟨_, _, _, _, _, _, _, _, _, _, rfl⟩ := hu
    rw [ht, account_answer]
    rfl
  | enqueued frame hp ht =>
    rw [ht, account_answer]
    rfl
  | polled f rest hq ht =>
    rw [ht, account_answer]
    rfl
  | initialized tscap za wcode hp ht =>
    rw [ht, account_answer, account_initState tscap za wcode hi hp]
    rfl
  | stopped hp ht =>
    have hstart : s.phase ≠ .uninit := by rcases hp with hp | hp <;> simp [hp]
    have hstop : Conserves [] (teardown s) { teardown s with phase := .stopped } := .of_books nofun rfl
    rw [ht, account_answer, ((teardown_conserves s).before hstop).account_eq hstart, teardown_eq]
    rfl
  | draining hp ht =>
    have hshut : s.shutCaller = none := by simpa [hp] using mt hi.shutdown.mp
    subst ht
    refine account_taken (by simp [hp]) nofun rfl ?_
    simp [outsideOpen, engineOpen, pendingTxns, hshut, List.countP_cons]
    omega
  | slotted a ha hp hs ht =>
    have hstart := ne_uninit_of_running hp
    subst ht
    refine account_taken hstart hstart rfl ?_
    simp [outsideOpen, engineOpen, pendingTxns, hs, ha, List.countP_cons]
    omega
  | lined a ha hp hs ht =>
    have hstart := ne_uninit_of_running hp
    subst ht
    refine account_taken hstart hstart rfl ?_
    simp [outsideOpen, engineOpen, pendingTxns, ha, List.countP_cons]
    omega
  | held d hp hs ht =>
    have hstart := ne_uninit_of_running hp
    subst ht
    refine account_taken hstart hstart rfl ?_
    simp [outsideOpen, engineOpen, pendingTxns, List.countP_cons]
    omega

/-- Commands of `c` that leave the agents' hands leave its account, until they are answered or taken. -/
theorem account_withAgents {c : Caller} {s : State} {inputs : List Event} {held : List Submission} {n : Nat}
    (h : outsideOpen c s = outsideOpen c { s with inputs := inputs, held := held } + n) :
    account c s = account c { s with inputs := inputs, held := held } + n := by
  rw [account_eq, account_eq, h]
  exact Nat.add_right_comm _ n _

/-- Settles O58: the account of every caller is kept by the engine's moves, and a command moves from outside to an answer or
to an open command in the engine. -/
theorem everyCommandIsAnsweredOnce : Obligations.EveryCommandIsAnsweredOnce := by
  intro s t c hi hs
  change account c t = account c s
  cases step_move hs with
  | command c0 inputs held hout hcase =>
    rw [account_withAgents (hout c)]
    exact hcase.account_eq (hi.withAgents inputs held c0) c
  | invalid c0 inputs held opc hout ht =>
    rw [account_withAgents (hout c), ht, account_respond]
  | queued inputs held hout ht =>
    rw [account_withAgents (n := 0) (hout c).symm, ht, Nat.add_zero]
  | engine inputs xin l hout hlen hmove hcold =>
    have hagents : account c s = account c { s with inputs := inputs, xin := xin } :=
      account_withAgents (n := 0) (hout c).symm
    by_cases hu : s.phase = .uninit
    · obtain ⟨hphase, hhist⟩ := hcold hu
      rw [hagents, account_eq, account_eq, if_pos hphase, if_pos hu, hhist, hmove.outside]
    · rw [hmove.account_eq hu, hagents]

/-! ### Transmit frames stay in order (20_memory.md R95) -/

/-- The transmit frames released so far, then those the engine holds. -/
def transmitted (s : State) : List (List Byte) := releasedFrames s.history ++ heldFrames s

theorem transmitted_respond (c : Caller) (opc : BitVec 8) (code : Status) (data : List Word32) (s : State) :
    transmitted (s.respond c opc code data) = transmitted s := by
  simp [transmitted, heldFrames]

theorem transmitted_answer (opc : BitVec 8) (code : Status) (data : List Word32) (s : State) :
    transmitted (s.answer opc code data) = transmitted s := transmitted_respond s.portCaller opc code data s

/-- After INIT no transmit frame is held, and a stopped engine held none. -/
theorem transmitted_initState (tscap za : Bit) (wcode : BitVec 2) {s : State} (hi : s.Inv) (hp : s.phase = .stopped) :
    transmitted (initState tscap za wcode s) = transmitted s := by
  obtain ⟨-, hcur, hq, -⟩ := hi.stopped hp
  have hs : heldFrames s = [] := by simp [heldFrames, hcur, hq]
  rw [transmitted, transmitted, hs]
  rfl

/-- Of the commands only an accepted TX_ENQUEUE extends the list, by its frame, and it answers `OK`. -/
theorem CommandCase.transmits {s t : State} (h : CommandCase s t) (hi : s.Inv) (hp : s.phase ≠ .uninit) :
    transmitted t = transmitted s ∨
      ∃ f, transmitted t = transmitted s ++ [f] ∧ t.history = s.history ++ [.resp t.portCaller [0x20000000#32]] := by
  cases h with
  | enqueued frame hph ht =>
    refine .inr ⟨frame, ?_, ?_⟩
    · rw [ht, transmitted_answer]
      simp [transmitted, heldFrames]
    · rw [ht]
      rfl
  | answered u opc code data hu ht =>
    rw [ht, transmitted_answer]
    exact .inl hu.conserves.frames
  | polled f rest hq ht =>
    rw [ht, transmitted_answer]
    exact .inl rfl
  | initialized tscap za wcode hph ht =>
    rw [ht, transmitted_answer]
    exact .inl (transmitted_initState tscap za wcode hi (hph.resolve_left hp))
  | stopped hph ht =>
    rw [ht, transmitted_answer]
    exact .inl (teardown_conserves s).frames
  | draining hph ht | slotted a ha hph hs ht | lined a ha hph hs ht | held d hph hs ht =>
    subst ht
    exact .inl rfl

/-- Settles O59: the engine's moves keep the released and the held frames as one list, and of the commands only an accepted
TX_ENQUEUE extends it. -/
theorem transmitFramesAreKeptInOrder : Obligations.TransmitFramesAreKeptInOrder := by
  intro s t hi hp hs
  cases step_move hs with
  | command c inputs held hout hcase => exact hcase.transmits (hi.withAgents inputs held c) hp
  | invalid c inputs held opc hout ht =>
    subst ht
    exact .inl (transmitted_respond c opc .invalid [] _)
  | queued inputs held hout ht =>
    subst ht
    exact .inl rfl
  | engine inputs xin l hout hlen hmove hcold => exact .inl hmove.frames

/-! ### Received frames stay in order (20_memory.md R96) -/

/-- From `s` to `t` the queue of delivered frames grew by what was announced, one frame at most; or RX_POLL took its oldest
frame; or INIT emptied it. -/
def ReceiveMove (s t : State) : Prop :=
  (∃ l, indicatedFrames t.history = indicatedFrames s.history ++ l ∧ t.rxq = s.rxq ++ l ∧ l.length ≤ 1) ∨
    (∃ f, s.rxq = f :: t.rxq ∧ t.history = s.history ++ [.resp t.portCaller (0x21000000#32 :: rxPollWords f)]) ∨
    (t.rxq = [] ∧ t.phase = .idle ∧ (s.phase = .uninit ∨ s.phase = .stopped))

theorem Conserves.receiveMove {l : List RxFrame} {s t : State} (h : Conserves l s t) (hlen : l.length ≤ 1) :
    ReceiveMove s t := .inl ⟨l, h.announced, h.queued, hlen⟩

/-- What announces nothing and leaves the queue. -/
theorem ReceiveMove.of_same {s t : State} (hh : indicatedFrames t.history = indicatedFrames s.history)
    (hq : t.rxq = s.rxq) : ReceiveMove s t := .inl ⟨[], by simp [hh], by simp [hq], Nat.zero_le 1⟩

theorem CommandCase.receiveMove {s t : State} (h : CommandCase s t) : ReceiveMove s t := by
  cases h with
  | polled f rest hq ht =>
    subst ht
    exact .inr (.inl ⟨f, hq, rfl⟩)
  | initialized tscap za wcode hp ht =>
    subst ht
    exact .inr (.inr ⟨rfl, rfl, hp⟩)
  | answered u opc code data hu ht =>
    subst ht
    refine .of_same ?_ (by simpa using hu.conserves.queued)
    simpa using hu.conserves.announced
  | stopped hp ht =>
    subst ht
    refine .of_same ?_ (by simpa using (teardown_conserves s).queued)
    simpa using (teardown_conserves s).announced
  | enqueued frame hp ht =>
    subst ht
    exact .of_same (by simp) rfl
  | draining hp ht | slotted a ha hp hs ht | lined a ha hp hs ht | held d hp hs ht =>
    subst ht
    exact .of_same rfl rfl

/-- Settles O60: the engine's moves announce what they queue, and of the commands only RX_POLL takes a frame and only INIT
empties the queue. -/
theorem receiveOrderIsKept : Obligations.ReceiveOrderIsKept := by
  intro s t _ hs
  change ReceiveMove s t
  cases step_move hs with
  | command c inputs held hout hcase => exact hcase.receiveMove
  | invalid c inputs held opc hout ht =>
    subst ht
    exact .of_same (by simp) rfl
  | queued inputs held hout ht =>
    subst ht
    exact .of_same rfl rfl
  | engine inputs xin l hout hlen hmove hcold => exact hmove.receiveMove hlen

/-! ### One control transaction at a time (20_memory.md R94) -/

/-- A control exchange that is in flight in `t` is that of the transaction in the slot of `s`, which stays there. -/
def CtrlStays (s t : State) : Prop :=
  t.xkind = .ctrl → t.slot = s.slot ∧ ∃ a, s.slot = some a ∧ t.xout = ctrlOut a

theorem CtrlStays.of_xkind {s t : State} {k : XKind} (h : t.xkind = k) (hk : k ≠ .ctrl) : CtrlStays s t :=
  fun hc => absurd (h.symm.trans hc) hk

/-- What leaves the exchange and the slot: the outbound string is that of the slot's transaction by the invariant. -/
theorem CtrlStays.of_same {s t : State} (hi : s.Inv) (hk : t.xkind = s.xkind) (hslot : t.slot = s.slot)
    (hout : t.xout = s.xout) : CtrlStays s t := by
  intro hc
  obtain ⟨a, ha, hx, -⟩ := hi.outbound.ctrl (hk ▸ hc)
  exact ⟨hslot, a, ha, hout.trans hx⟩

theorem State.Inv.xkind_none {s : State} (hi : s.Inv) (hp : s.phase = .idle ∨ s.phase = .failed) : s.xkind = .none := by
  by_contra hk
  rcases hp with hp | hp <;> simpa [hp] using hi.exchange.mp hk

theorem finishDrain_xkind (s : State) : (finishDrain s).xkind = s.xkind := by
  rw [finishDrain_eq]
  rfl

theorem enterFailed_xkind (s : State) : (enterFailed s).xkind = s.xkind := by
  rw [enterFailed_eq]
  rfl

theorem finishExchange_xkind (s : State) : (finishExchange s).xkind = .none := by
  rcases finishExchange_cases s with ⟨-, h⟩ | ⟨-, -, h⟩ | ⟨-, -, h⟩ <;> rw [h]
  · exact finishDrain_xkind (clearExchange s)
  · exact enterFailed_xkind (clearExchange s)

theorem xferFault_xkind (s : State) : (xferFault s).xkind = .none := by
  unfold xferFault
  split
  · exact finishDrain_xkind (clearExchange (s.emit .xferFault))
  · exact enterFailed_xkind _

theorem exec_inbound_xkind {i : Instr} {s t : State} (hp : i.port = .ctrlIn ∨ i.port = .dataIn)
    (h : exec i s = .next t) : t.xkind = .none := by
  rcases hp with hp | hp
  · rw [exec_ctrlIn hp] at h
    obtain ⟨-, a, -, rfl⟩ := completeCtrl_next.mp h
    exact finishExchange_xkind _
  · obtain ⟨f, p, hf⟩ := footerRow_of_port hp
    rw [exec_footerRow hf] at h
    obtain ⟨-, rfl⟩ := completeData_next.mp h
    exact finishExchange_xkind _

/-- A control exchange begins for the transaction in the slot alone (44_transfer_scheduler.md R316). -/
theorem exec_outbound_ctrlStays {i : Instr} {s t : State} (hp : i.port = .outbound) (h : exec i s = .next t) :
    CtrlStays s t := by
  cases i <;> try cases hp
  case ctrlHdrRd | ctrlHdrWr =>
    obtain ⟨a, ha, -, rfl⟩ := issueCtrl_next.mp h
    exact fun _ => ⟨rfl, a, ha, rfl⟩
  case dataPoll =>
    obtain ⟨-, rfl⟩ := execDataPoll_next.mp h
    exact .of_xkind (k := .poll) rfl nofun
  case dataHdr =>
    obtain ⟨c, q, -, -, rfl⟩ := execDataHdr_next.mp h
    exact .of_xkind (k := .data) rfl nofun

theorem CommandCase.ctrlStays {s t : State} (h : CommandCase s t) (hi : s.Inv) : CtrlStays s t := by
  cases h with
  | answered u opc code data hu ht =>
    obtain ⟨_, _, _, _, _, _, _, _, _, _, rfl⟩ := hu
    subst ht
    exact .of_same hi rfl rfl rfl
  | initialized tscap za wcode hp ht =>
    subst ht
    exact .of_xkind (k := .none) rfl nofun
  | stopped hp ht =>
    subst ht
    refine .of_xkind (k := .none) ?_ nofun
    rw [teardown_eq]
    exact hi.xkind_none hp
  | slotted a ha hp hs ht =>
    subst ht
    intro hc
    obtain ⟨b, hb, -⟩ := hi.outbound.ctrl hc
    rw [hs] at hb
    cases hb
  | enqueued _ _ ht | polled _ _ _ ht | draining _ ht | lined _ _ _ _ ht | held _ _ _ ht =>
    subst ht
    exact .of_same hi rfl rfl rfl

/-- Settles O56: no command takes the slot of an exchange in flight, the step that ends an exchange leaves none in flight, and a
control exchange is issued from the slot. -/
theorem oneControlTransactionAtATime : Obligations.OneControlTransactionAtATime := by
  intro s t hi hs
  change CtrlStays s t
  cases step_next_cases hs with
  | command c d s0 i ht hd he =>
    obtain ⟨inputs, held, rfl, -⟩ := ht.fewer
    exact (exec_command_case (decode_command_port hd) he).ctrlStays (hi.withAgents inputs held c)
  | invalid c d s0 e ht hd he =>
    obtain ⟨inputs, held, rfl, -⟩ := ht.fewer
    subst he
    exact .of_same hi rfl rfl rfl
  | queued c d rest hq he =>
    subst he
    exact .of_same hi rfl rfl rfl
  | wake rest hq he =>
    subst he
    unfold wake
    split <;> exact .of_same hi rfl rfl rfl
  | idle s0 ht hw he =>
    obtain ⟨inputs, rfl, -⟩ := ht.keeps
    subst he
    exact .of_same hi rfl rfl rfl
  | issue s0 w i ht hw hd he =>
    obtain ⟨inputs, rfl, -⟩ := ht.keeps
    exact exec_outbound_ctrlStays (s := { s with inputs := inputs }) (decode_outbound_port hd) he
  | complete bytes rest i hq hl hd he =>
    have hport := decode_inbound_port (inboundPort_inbound s) hd ▸ inboundPort_inbound s
    exact .of_xkind (exec_inbound_xkind hport he) nofun
  | fault rest hq hp he =>
    subst he
    exact .of_xkind (xferFault_xkind _) nofun

end Sys2Proof.Machine

/-! PROOFS of the family 30_encoding.md: the decoder and the encoder are inverse at each port, and what is refused is answered
`INVALID`. Each word layout gets two facts, what its fields read back as and that a word is laid out from its fields; the
first serves `decode` after `encode`, the second `encode` after `decode`. -/

namespace Sys2Proof.Machine

open Sys2Proof.Laws (extract_above extract_within ctrlWord_marks)

/-! ### Frame bytes in words (30_encoding.md R152, 20_memory.md R86) -/

theorem toBE32_append (a b c d : Byte) : toBE32 (a ++ b ++ c ++ d) = [a, b, c, d] := toBE32_be32 (b := [a, b, c, d]) rfl

theorem flatMap_toBE32_length (ws : List Word32) : (ws.flatMap toBE32).length = 4 * ws.length := by
  simp [List.length_flatMap, Nat.mul_comm]

theorem pack_length (frame : List Byte) : (pack frame).length = wordsFor frame.length := by
  induction frame using pack.induct with
  | case1 => rfl
  | case5 a b c d rest ih => simp only [pack, List.length_cons, ih, wordsFor]; omega
  | _ => simp [pack, wordsFor]

/-- The words of a packed frame carry its bytes first, then the pad bytes. -/
theorem unpack_pack (frame : List Byte) : unpack frame.length (pack frame) = frame := by
  induction frame using pack.induct with
  | case1 => rfl
  | case5 a b c d rest ih => simpa [unpack, pack, toBE32_append] using ih
  | _ => simp [unpack, pack, toBE32_append]

/-- The words that a length announces are enough to carry it. -/
theorem unpack_length {n : Nat} {ws : List Word32} (h : ws.length = wordsFor n) : (unpack n ws).length = n := by
  rw [unpack, List.length_take, flatMap_toBE32_length, h, wordsFor]
  omega

/-! ### Words that hold a small number -/

theorem extractLsb'_toNat_of_lt {w : Word32} {k : Nat} (h : w.toNat < 2 ^ k) : (w.extractLsb' 0 k).toNat = w.toNat := by
  rw [BitVec.extractLsb'_toNat, Nat.shiftRight_zero, Nat.mod_eq_of_lt h]

theorem extractLsb'_high_eq_zero {w : Word32} {k l : Nat} (h : w.toNat < 2 ^ k) : w.extractLsb' k l = 0#l := by
  apply BitVec.eq_of_toNat_eq
  rw [BitVec.extractLsb'_toNat, Nat.shiftRight_eq_div_pow, Nat.div_eq_of_lt h]
  simp

/-- A word whose bits from `k` on are 0 is a number of `k` bits. -/
theorem toNat_lt_of_high_eq_zero {w : Word32} {k l : Nat} (hkl : k + l = 32) (h : w.extractLsb' k l = 0#l) :
    w.toNat < 2 ^ k := by
  have hdiv : w.toNat / 2 ^ k % 2 ^ l = 0 := by
    simpa [BitVec.extractLsb'_toNat, Nat.shiftRight_eq_div_pow] using congrArg BitVec.toNat h
  have hlt : w.toNat / 2 ^ k < 2 ^ l := Nat.div_lt_of_lt_mul (by rw [← pow_add, hkl]; exact w.isLt)
  rw [Nat.mod_eq_of_lt hlt] at hdiv
  exact (Nat.div_eq_zero_iff_lt (by positivity)).mp hdiv

/-! ### Descriptor words (30_encoding.md R150, R152) -/

/-- Word 0 of `INIT`. -/
def initWord (tscap za : Bit) (wcode : BitVec 2) : Word32 := opcInit ++ 0#19 ++ tscap ++ za ++ 0#1 ++ wcode

/-- Word 0 of `REG_READ` and `REG_WRITE`. -/
def regWord (opc : BitVec 8) (aid : Bit) (mms : BitVec 4) (addr : BitVec 16) : Word32 := opc ++ aid ++ 0#3 ++ mms ++ addr

/-- The word of `STATUS_CLEAR`. -/
def clearWord (mask : BitVec 16) : Word32 := opcStatusClear ++ 0#8 ++ mask

theorem encode_init (tscap za : Bit) (wcode : BitVec 2) : encode (.init tscap za wcode) = [initWord tscap za wcode] := rfl

theorem encode_regRead (aid : Bit) (mms : BitVec 4) (addr : BitVec 16) (count : BitVec 8) :
    encode (.regRead aid mms addr count) = [regWord opcRegRead aid mms addr, 0#24 ++ count] := rfl

theorem encode_regWrite (aid : Bit) (mms : BitVec 4) (addr : BitVec 16) (vals : List Word32) :
    encode (.regWrite aid mms addr vals) =
      regWord opcRegWrite aid mms addr :: BitVec.ofNat 32 vals.length :: vals := rfl

theorem encode_statusClear (mask : BitVec 16) : encode (.statusClear mask) = [clearWord mask] := rfl

theorem initWord_fields (tscap za : Bit) (wcode : BitVec 2) :
    opcodeOf (initWord tscap za wcode) = opcInit ∧ (initWord tscap za wcode).extractLsb' 5 19 = 0#19 ∧
      (initWord tscap za wcode).extractLsb' 4 1 = tscap ∧ (initWord tscap za wcode).extractLsb' 3 1 = za ∧
      (initWord tscap za wcode).extractLsb' 2 1 = 0#1 ∧ (initWord tscap za wcode).extractLsb' 0 2 = wcode := by
  have high : ∀ s l, 2 ≤ s → (initWord tscap za wcode).extractLsb' s l =
      (opcInit ++ 0#19 ++ tscap ++ za ++ 0#1).extractLsb' (s - 2) l := fun s l hs => extract_above _ wcode hs
  have low : (initWord tscap za wcode).extractLsb' 0 2 = wcode := BitVec.extractLsb'_append_eq_right
  simp (disch := decide) only [opcodeOf, high, low, extract_above, extract_within, Nat.reduceSub,
    BitVec.extractLsb'_eq_self, and_self]

theorem regWord_fields (opc : BitVec 8) (aid : Bit) (mms : BitVec 4) (addr : BitVec 16) :
    opcodeOf (regWord opc aid mms addr) = opc ∧ (regWord opc aid mms addr).extractLsb' 23 1 = aid ∧
      (regWord opc aid mms addr).extractLsb' 20 3 = 0#3 ∧ (regWord opc aid mms addr).extractLsb' 16 4 = mms ∧
      (regWord opc aid mms addr).extractLsb' 0 16 = addr := by
  have high : ∀ s l, 16 ≤ s → (regWord opc aid mms addr).extractLsb' s l =
      (opc ++ aid ++ 0#3 ++ mms).extractLsb' (s - 16) l := fun s l hs => extract_above _ addr hs
  have low : (regWord opc aid mms addr).extractLsb' 0 16 = addr := BitVec.extractLsb'_append_eq_right
  simp (disch := decide) only [opcodeOf, high, low, extract_above, extract_within, Nat.reduceSub,
    BitVec.extractLsb'_eq_self, and_self]

theorem clearWord_fields (mask : BitVec 16) :
    opcodeOf (clearWord mask) = opcStatusClear ∧ (clearWord mask).extractLsb' 16 8 = 0#8 ∧
      (clearWord mask).extractLsb' 0 16 = mask := by
  have high : ∀ s l, 16 ≤ s → (clearWord mask).extractLsb' s l = (opcStatusClear ++ 0#8).extractLsb' (s - 16) l :=
    fun s l hs => extract_above _ mask hs
  have low : (clearWord mask).extractLsb' 0 16 = mask := BitVec.extractLsb'_append_eq_right
  simp (disch := decide) only [opcodeOf, high, low, extract_above, extract_within, Nat.reduceSub,
    BitVec.extractLsb'_eq_self, and_self]

theorem bareWord_of_fields {w : Word32} (h : w.extractLsb' 0 24 = 0#24) : bareWord (opcodeOf w) = w := by
  rw [bareWord, ← h]
  exact BitVec.extractLsb'_append_extractLsb'

theorem initWord_of_fields {w : Word32} (hop : opcodeOf w = opcInit) (h5 : w.extractLsb' 5 19 = 0#19)
    (h2 : w.extractLsb' 2 1 = 0#1) : initWord (w.extractLsb' 4 1) (w.extractLsb' 3 1) (w.extractLsb' 0 2) = w := by
  rw [initWord, ← hop, ← h5, ← h2, opcodeOf]
  simp (disch := decide) only [BitVec.extractLsb'_append_extractLsb'_eq_extractLsb']
  exact BitVec.extractLsb'_eq_self

theorem regWord_of_fields {w : Word32} (h : w.extractLsb' 20 3 = 0#3) :
    regWord (opcodeOf w) (w.extractLsb' 23 1) (w.extractLsb' 16 4) (w.extractLsb' 0 16) = w := by
  rw [regWord, ← h, opcodeOf]
  simp (disch := decide) only [BitVec.extractLsb'_append_extractLsb'_eq_extractLsb']
  exact BitVec.extractLsb'_eq_self

theorem clearWord_of_fields {w : Word32} (hop : opcodeOf w = opcStatusClear) (h : w.extractLsb' 16 8 = 0#8) :
    clearWord (w.extractLsb' 0 16) = w := by
  rw [clearWord, ← hop, ← h, opcodeOf]
  simp (disch := decide) only [BitVec.extractLsb'_append_extractLsb'_eq_extractLsb']
  exact BitVec.extractLsb'_eq_self

/-! ### What the encoder writes at the command port is decoded (30_encoding.md R152) -/

theorem decode_encode_init (tscap za : Bit) (wcode : BitVec 2) :
    decode .command (encode (.init tscap za wcode)) = .ok (.init tscap za wcode) := by
  obtain ⟨hop, h5, htscap, hza, h2, hwcode⟩ := initWord_fields tscap za wcode
  rw [encode_init, decode, decodeDescriptor, if_pos hop, decodeInit, h5, h2, htscap, hza, hwcode]
  rfl

theorem decode_encode_regRead (aid : Bit) (mms : BitVec 4) (addr : BitVec 16) (count : BitVec 8) :
    decode .command (encode (.regRead aid mms addr count)) = .ok (.regRead aid mms addr count) := by
  obtain ⟨hop, haid, hres, hmms, haddr⟩ := regWord_fields opcRegRead aid mms addr
  have hhigh : (0#24 ++ count : Word32).extractLsb' 8 24 = 0#24 := BitVec.extractLsb'_append_eq_left
  have hlow : (0#24 ++ count : Word32).extractLsb' 0 8 = count := BitVec.extractLsb'_append_eq_right
  have hdec : decodeRegRead (regWord opcRegRead aid mms addr) [0#24 ++ count] = .ok (.regRead aid mms addr count) := by
    simp [decodeRegRead, haid, hres, hmms, haddr, hhigh, hlow]
  rw [encode_regRead, decode, decodeDescriptor, hop]
  exact hdec

/-- A count of at most eight bits is read back from word 1. -/
theorem decode_encode_regWrite (aid : Bit) (mms : BitVec 4) (addr : BitVec 16) {vals : List Word32}
    (h : vals.length < 2 ^ 8) :
    decode .command (encode (.regWrite aid mms addr vals)) = .ok (.regWrite aid mms addr vals) := by
  obtain ⟨hop, haid, hres, hmms, haddr⟩ := regWord_fields opcRegWrite aid mms addr
  have hcount : (BitVec.ofNat 32 vals.length).toNat = vals.length :=
    (BitVec.toNat_ofNat ..).trans (Nat.mod_eq_of_lt (by omega))
  have hhigh : (BitVec.ofNat 32 vals.length).extractLsb' 8 24 = 0#24 := extractLsb'_high_eq_zero (by rwa [hcount])
  have hlow : ((BitVec.ofNat 32 vals.length).extractLsb' 0 8).toNat = vals.length := by
    rw [extractLsb'_toNat_of_lt (by rwa [hcount]), hcount]
  have hdec : decodeRegWrite (regWord opcRegWrite aid mms addr) (BitVec.ofNat 32 vals.length :: vals) =
      .ok (.regWrite aid mms addr vals) := by
    simp [decodeRegWrite, haid, hres, hmms, haddr, hhigh, hlow]
  rw [encode_regWrite, decode, decodeDescriptor, hop]
  exact hdec

/-- A length of at most sixteen bits is read back from word 1, and the frame from the packed words. -/
theorem decode_encode_txEnqueue {frame : List Byte} (h : frame.length < 2 ^ 16) :
    decode .command (encode (.txEnqueue frame)) = .ok (.txEnqueue frame) := by
  have hlen : (BitVec.ofNat 32 frame.length).toNat = frame.length :=
    (BitVec.toNat_ofNat ..).trans (Nat.mod_eq_of_lt (by omega))
  have hhigh : (BitVec.ofNat 32 frame.length).extractLsb' 16 16 = 0#16 := extractLsb'_high_eq_zero (by rwa [hlen])
  have hlow : ((BitVec.ofNat 32 frame.length).extractLsb' 0 16).toNat = frame.length := by
    rw [extractLsb'_toNat_of_lt (by rwa [hlen]), hlen]
  have hzero : (bareWord opcTxEnqueue).extractLsb' 0 24 = 0#24 := rfl
  have hdec : decodeTxEnqueue (bareWord opcTxEnqueue) (BitVec.ofNat 32 frame.length :: pack frame) =
      .ok (.txEnqueue frame) := by
    simp [decodeTxEnqueue, hzero, hhigh, hlow, pack_length, unpack_pack]
  exact hdec

theorem decode_encode_statusClear {mask : BitVec 16} (h : mask &&& reservedMask = 0#16) :
    decode .command (encode (.statusClear mask)) = .ok (.statusClear mask) := by
  obtain ⟨hop, hres, hmask⟩ := clearWord_fields mask
  have hdec : decodeStatusClear (clearWord mask) [] = .ok (.statusClear mask) := by
    simp [decodeStatusClear, hres, hmask, h]
  rw [encode_statusClear, decode, decodeDescriptor, hop]
  exact hdec

/-! ### Wire words (30_encoding.md R111, R115, R117, R122, R126) -/

/-- Bits 31 to 29 tell the outbound headers apart. -/
theorem extractLsb'_kind (w : Word32) :
    w.extractLsb' 29 3 = w.extractLsb' 31 1 ++ w.extractLsb' 30 1 ++ w.extractLsb' 29 1 := by
  simp (disch := decide) only [BitVec.extractLsb'_append_extractLsb'_eq_extractLsb']

theorem ctrlWord_kind (dnc hdrb wnr aid : Bit) (mms : BitVec 4) (addr : BitVec 16) (len : BitVec 7) (p : Bit) :
    (ctrlWord dnc hdrb wnr aid mms addr len p).extractLsb' 29 3 = dnc ++ hdrb ++ wnr := by
  obtain ⟨hdnc, hhdrb, hwnr⟩ := ctrlWord_marks dnc hdrb wnr aid mms addr len p
  rw [extractLsb'_kind, hdnc, hhdrb, hwnr]

theorem ctrlWord_operands (dnc hdrb wnr aid : Bit) (mms : BitVec 4) (addr : BitVec 16) (len : BitVec 7) (p : Bit) :
    (ctrlWord dnc hdrb wnr aid mms addr len p).extractLsb' 28 1 = aid ∧
      (ctrlWord dnc hdrb wnr aid mms addr len p).extractLsb' 24 4 = mms ∧
      (ctrlWord dnc hdrb wnr aid mms addr len p).extractLsb' 8 16 = addr ∧
      (ctrlWord dnc hdrb wnr aid mms addr len p).extractLsb' 1 7 = len := by
  have h := echoFields_ctrlWord dnc hdrb wnr aid mms addr len p
  exact ⟨congrArg Echo.aid h, congrArg Echo.mms h, congrArg Echo.addr h, congrArg Echo.len h⟩

/-- A word with these bits 31 to 29 is laid out from its operands and its parity bit. -/
theorem ctrlWord_of_kind {w : Word32} {dnc hdrb wnr : Bit} (h : w.extractLsb' 29 3 = dnc ++ hdrb ++ wnr) :
    ctrlWord dnc hdrb wnr (w.extractLsb' 28 1) (w.extractLsb' 24 4) (w.extractLsb' 8 16) (w.extractLsb' 1 7)
      (w.extractLsb' 0 1) = w := by
  rw [ctrlWord, ← h]
  simp (disch := decide) only [BitVec.extractLsb'_append_extractLsb'_eq_extractLsb']
  exact BitVec.extractLsb'_eq_self

theorem pollWord_fields (p : Bit) :
    (pollWord p).extractLsb' 29 3 = 0b100#3 ∧ (pollWord p).extractLsb' 1 31 = 0x40000000#31 ∧
      (pollWord p).extractLsb' 0 1 = p := by
  have high : ∀ s l, 1 ≤ s → (pollWord p).extractLsb' s l = (1#1 ++ 0#30 : BitVec 31).extractLsb' (s - 1) l :=
    fun s l hs => extract_above _ p hs
  exact ⟨high 29 3 (by decide), high 1 31 (by decide), BitVec.extractLsb'_append_eq_right⟩

theorem pollWord_of_fields {w : Word32} (h : w.extractLsb' 1 31 = 0x40000000#31) : pollWord (w.extractLsb' 0 1) = w := by
  change (0x40000000#31 ++ w.extractLsb' 0 1 : Word32) = w
  rw [← h]
  exact BitVec.extractLsb'_append_extractLsb'

/-- A field above the parity bit of a data header. -/
theorem dataWord_above (sv ev : Bit) (ebo : BitVec 6) (p : Bit) {start len : Nat} (h : 1 ≤ start) :
    (dataWord sv ev ebo p).extractLsb' start len =
      (1#1 ++ 0#1 ++ 0#1 ++ 0#5 ++ 0#2 ++ 1#1 ++ sv ++ 0#4 ++ 0#1 ++ ev ++ ebo ++ 0#2 ++ 0#5).extractLsb' (start - 1) len :=
  extract_above _ p h

theorem dataWord_fields (sv ev : Bit) (ebo : BitVec 6) (p : Bit) :
    (dataWord sv ev ebo p).extractLsb' 20 1 = sv ∧ (dataWord sv ev ebo p).extractLsb' 14 1 = ev ∧
      (dataWord sv ev ebo p).extractLsb' 8 6 = ebo ∧ (dataWord sv ev ebo p).extractLsb' 0 1 = p := by
  have low : (dataWord sv ev ebo p).extractLsb' 0 1 = p := BitVec.extractLsb'_append_eq_right
  simp (disch := decide) only [dataWord_above, low, extract_above, extract_within, Nat.reduceSub,
    BitVec.extractLsb'_eq_self, and_self]

/-- A data header has bits 31 to 29 of no control header, and its `DV` is not that of the poll. -/
theorem dataWord_kind (sv ev : Bit) (ebo : BitVec 6) (p : Bit) :
    (dataWord sv ev ebo p).extractLsb' 29 3 = 0b100#3 ∧ (dataWord sv ev ebo p).extractLsb' 1 31 ≠ 0x40000000#31 := by
  constructor
  · simp (disch := decide) only [dataWord_above, extract_above, Nat.reduceSub]
    decide
  · intro h
    have hdv := congrArg (fun x => x.extractLsb' 20 1) h
    simp (disch := decide) only [dataWord_above, BitVec.extractLsb'_eq_self, extract_above, extract_within,
      Nat.reduceSub] at hdv
    exact absurd hdv (by decide)

/-- The fixed choices of 30_encoding.md R124: `DNC` and `DV` are 1, and `SEQ`, `NORX`, `VS`, `SWO`, `TSC` and the reserved
bits are 0. -/
def DataHeaderFixed (w : Word32) : Prop :=
  w.extractLsb' 21 11 = 0x401#11 ∧ w.extractLsb' 16 4 = 0#4 ∧ w.extractLsb' 15 1 = 0#1 ∧ w.extractLsb' 6 2 = 0#2 ∧
    w.extractLsb' 1 5 = 0#5

theorem dataWord_fixed (sv ev : Bit) (ebo : BitVec 6) (p : Bit) : DataHeaderFixed (dataWord sv ev ebo p) := by
  simp (disch := decide) only [DataHeaderFixed, dataWord_above, extract_above, extract_within, Nat.reduceSub]
  decide

/-- A word with the fixed choices is laid out from its marks, its end offset and its parity bit. -/
theorem dataWord_of_fixed {w : Word32} (h : DataHeaderFixed w) :
    dataWord (w.extractLsb' 20 1) (w.extractLsb' 14 1) (w.extractLsb' 8 6) (w.extractLsb' 0 1) = w := by
  obtain ⟨htop, hswo, hres, htsc, hlow⟩ := h
  change (0x401#11 ++ w.extractLsb' 20 1 ++ 0#4 ++ 0#1 ++ w.extractLsb' 14 1 ++ w.extractLsb' 8 6 ++ 0#2 ++ 0#5 ++
    w.extractLsb' 0 1 : Word32) = w
  rw [← htop, ← hswo, ← hres, ← htsc, ← hlow]
  simp (disch := decide) only [BitVec.extractLsb'_append_extractLsb'_eq_extractLsb']
  exact BitVec.extractLsb'_eq_self

/-- Reading a field of a word through a mask that has all its bits. -/
theorem extractLsb'_of_masked {w mask v : Word32} (h : w &&& mask = v) {s l : Nat}
    (hm : mask.extractLsb' s l = BitVec.allOnes l) : w.extractLsb' s l = v.extractLsb' s l := by
  rw [← h, BitVec.extractLsb'_and, hm, BitVec.and_allOnes]

/-- The decoder's mask selects the fixed choices. -/
theorem masked_iff_dataHeaderFixed {w : Word32} : w &&& 0xFFEF80FE#32 = 0x80200000#32 ↔ DataHeaderFixed w := by
  constructor
  · intro h
    exact ⟨extractLsb'_of_masked h rfl, extractLsb'_of_masked h rfl, extractLsb'_of_masked h rfl,
      extractLsb'_of_masked h rfl, extractLsb'_of_masked h rfl⟩
  · rintro ⟨htop, hswo, hres, htsc, hlow⟩
    have hfixed : DataHeaderFixed (w &&& 0xFFEF80FE#32) := by
      simp only [DataHeaderFixed, BitVec.extractLsb'_and, htop, hswo, hres, htsc, hlow]
      decide
    have hsv : (w &&& 0xFFEF80FE#32).extractLsb' 20 1 = 0#1 := BitVec.extractLsb'_and.trans BitVec.and_zero
    have hev : (w &&& 0xFFEF80FE#32).extractLsb' 14 1 = 0#1 := BitVec.extractLsb'_and.trans BitVec.and_zero
    have hebo : (w &&& 0xFFEF80FE#32).extractLsb' 8 6 = 0#6 := BitVec.extractLsb'_and.trans BitVec.and_zero
    have hp : (w &&& 0xFFEF80FE#32).extractLsb' 0 1 = 0#1 := BitVec.extractLsb'_and.trans BitVec.and_zero
    rw [← dataWord_of_fixed hfixed, hsv, hev, hebo, hp]
    rfl

/-! ### What the encoder writes at the other ports is decoded -/

theorem decode_encode_ctrlHdrRd (aid : Bit) (mms : BitVec 4) (addr : BitVec 16) (len : BitVec 7) (p : Bit) :
    decode .outbound (encode (.ctrlHdrRd aid mms addr len p)) = .ok (.ctrlHdrRd aid mms addr len p) := by
  obtain ⟨haid, hmms, haddr, hlen⟩ := ctrlWord_operands 0#1 0#1 0#1 aid mms addr len p
  rw [encode, decode, decodeOutbound, ctrlWord_kind, haid, hmms, haddr, hlen, ctrlWord_parity]
  rfl

theorem decode_encode_ctrlHdrWr (aid : Bit) (mms : BitVec 4) (addr : BitVec 16) (len : BitVec 7) (p : Bit) :
    decode .outbound (encode (.ctrlHdrWr aid mms addr len p)) = .ok (.ctrlHdrWr aid mms addr len p) := by
  obtain ⟨haid, hmms, haddr, hlen⟩ := ctrlWord_operands 0#1 0#1 1#1 aid mms addr len p
  rw [encode, decode, decodeOutbound, ctrlWord_kind, haid, hmms, haddr, hlen, ctrlWord_parity]
  rfl

theorem decode_encode_dataPoll (p : Bit) : decode .outbound (encode (.dataPoll p)) = .ok (.dataPoll p) := by
  obtain ⟨hkind, hpoll, hp⟩ := pollWord_fields p
  rw [encode, decode, decodeOutbound, hkind, hpoll, hp]
  rfl

theorem decode_encode_dataHdr (sv ev : Bit) (ebo : BitVec 6) (p : Bit) :
    decode .outbound (encode (.dataHdr sv ev ebo p)) = .ok (.dataHdr sv ev ebo p) := by
  obtain ⟨hsv, hev, hebo, hp⟩ := dataWord_fields sv ev ebo p
  obtain ⟨hkind, hpoll⟩ := dataWord_kind sv ev ebo p
  rw [encode, decode, decodeOutbound, hkind, if_neg (by decide), if_neg (by decide), if_neg hpoll,
    if_pos (masked_iff_dataHeaderFixed.mpr (dataWord_fixed ..)), hsv, hev, hebo, hp]

theorem decode_encode_ctrlEcho {dnc hdrb wnr aid : Bit} {mms : BitVec 4} {addr : BitVec 16} {len : BitVec 7} {p : Bit}
    (h0 : ctrlWord dnc hdrb wnr aid mms addr len p ≠ 0#32)
    (h1 : ctrlWord dnc hdrb wnr aid mms addr len p ≠ 0xFFFFFFFF#32) :
    decode .ctrlIn (encode (.ctrlEcho dnc hdrb wnr aid mms addr len p)) =
      .ok (.ctrlEcho dnc hdrb wnr aid mms addr len p) := by
  obtain ⟨hdnc, hhdrb, hwnr⟩ := ctrlWord_marks dnc hdrb wnr aid mms addr len p
  obtain ⟨haid, hmms, haddr, hlen⟩ := ctrlWord_operands dnc hdrb wnr aid mms addr len p
  rw [encode, decode, decodeCtrlIn, if_neg h0, if_neg h1, hdnc, hhdrb, hwnr, haid, hmms, haddr, hlen, ctrlWord_parity]

/-- The fields of a footer that do not choose its row, with its parity bit. -/
def bitsOfFooter (f : Footer) (p : Bit) : FooterBits :=
  { exst := f.exst, hdrb := f.hdrb, sync := f.sync, rca := f.rca, vs := f.vs, swo := f.swo, fd := f.fd, ebo := f.ebo,
    rtsa := f.rtsa, rtsp := f.rtsp, txc := f.txc, p := p }

theorem footerBitsOf_eq (w : Word32) : footerBitsOf w = bitsOfFooter (footerFields w) (w.extractLsb' 0 1) := rfl

theorem footerBitsOf_footerWord (dv sv ev : Bit) (b : FooterBits) :
    footerBitsOf (footerWord (footerOf dv sv ev b) b.p) = b := by
  rw [footerBitsOf_eq, footerFields_footerWord, footerWord_parity]
  rfl

/-- The footer row that `DV`, `SV` and `EV` choose (43_data_framer.md R270). -/
def rowOfMarks (dv sv ev : Bit) (b : FooterBits) : Instr :=
  if dv = 0#1 then .ftrNodata sv ev b
  else if sv = 0#1 then (if ev = 0#1 then .ftrCont b else .ftrEof b)
  else if ev = 0#1 then .ftrSof b
  else .ftrSofEof b

theorem decodeDataIn_eq (w : Word32) :
    decodeDataIn w = rowOfMarks (footerFields w).dv (footerFields w).sv (footerFields w).ev (footerBitsOf w) := rfl

theorem footerRow_rowOfMarks (dv sv ev : Bit) (b : FooterBits) :
    footerRow (rowOfMarks dv sv ev b) = some (footerOf dv sv ev b, b.p) := by
  have bit : ∀ x : Bit, x = 0#1 ∨ x = 1#1 := by decide
  rcases bit dv with rfl | rfl
  · rfl
  · rcases bit sv with rfl | rfl <;> rcases bit ev with rfl | rfl <;> rfl

theorem encode_footerRow {i : Instr} {f : Footer} {p : Bit} (h : footerRow i = some (f, p)) :
    encode i = [footerWord f p] := by
  cases i <;> cases h <;> rfl

theorem decode_encode_rowOfMarks (dv sv ev : Bit) (b : FooterBits) :
    decode .dataIn (encode (rowOfMarks dv sv ev b)) = .ok (rowOfMarks dv sv ev b) := by
  rw [encode_footerRow (footerRow_rowOfMarks dv sv ev b), decode, decodeDataIn_eq, footerFields_footerWord,
    footerBitsOf_footerWord]
  rfl

/-! ### What is decoded from a wire word encodes to it (30_encoding.md R110, R111, R115, R117, R122) -/

theorem encode_of_decodeOutbound {w : Word32} {i : Instr} (h : decodeOutbound w = .ok i) : encode i = [w] := by
  unfold decodeOutbound at h
  split_ifs at h with hrd hwr hpoll hdata <;> cases h
  · rw [encode, ctrlWord_of_kind hrd]
  · rw [encode, ctrlWord_of_kind hwr]
  · rw [encode, pollWord_of_fields hpoll]
  · rw [encode, dataWord_of_fixed (masked_iff_dataHeaderFixed.mp hdata)]

theorem encode_decodeCtrlIn (w : Word32) : encode (decodeCtrlIn w) = [w] := by
  unfold decodeCtrlIn
  split_ifs with h0 h1
  · rw [encode, h0]
  · rw [encode, h1]
  · rw [encode, ctrlWord_echoFields]

theorem encode_decodeDataIn (w : Word32) : encode (decodeDataIn w) = [w] := by
  rw [decodeDataIn_eq, encode_footerRow (footerRow_rowOfMarks ..), footerBitsOf_eq]
  exact congrArg (fun v => [v]) (footerWord_footerFields w)

/-! ### What is decoded from a descriptor (30_encoding.md R152, R160) -/

theorem bareWord_of_decodeBare {i j : Instr} {opc : BitVec 8} {w0 : Word32} {rest : List Word32} (hop : opcodeOf w0 = opc)
    (h : decodeBare j w0 rest = .ok i) : i = j ∧ w0 = bareWord opc ∧ rest = [] := by
  obtain ⟨hzero, hrest, hi⟩ := decodeBare_ok h
  exact ⟨hi, by rw [← hop, bareWord_of_fields hzero], hrest⟩

/-- A decoded descriptor is the encoding of its command, unless it is a TX_ENQUEUE, whose frame is the first LEN bytes of its
words. -/
theorem decode_command_cases {d : List Word32} {i : Instr} (h : decode .command d = .ok i) :
    (encode i = d ∧ ∀ frame, i ≠ .txEnqueue frame) ∨
      ∃ len ws, d = bareWord opcTxEnqueue :: len :: ws ∧ ws.length = wordsFor len.toNat ∧
        i = .txEnqueue (unpack len.toNat ws) := by
  simp only [decode, decodeDescriptor] at h
  split at h
  · cases h
  rename_i w0 rest
  split_ifs at h with hInit hShut hRd hWr hTx hRx hTsE hTsD hStR hStC
  · obtain ⟨h5, h2, rfl, rfl⟩ := decodeInit_ok h
    exact .inl ⟨by rw [encode_init, initWord_of_fields hInit h5 h2], nofun⟩
  · obtain ⟨rfl, rfl, rfl⟩ := bareWord_of_decodeBare hShut h
    exact .inl ⟨rfl, nofun⟩
  · obtain ⟨w1, rfl, hres, hhigh, rfl⟩ := decodeRegRead_ok h
    have hcount : (0#24 ++ w1.extractLsb' 0 8 : Word32) = w1 := by
      rw [← hhigh]; exact BitVec.extractLsb'_append_extractLsb'
    exact .inl ⟨by rw [encode_regRead, ← hRd, regWord_of_fields hres, hcount], nofun⟩
  · obtain ⟨w1, vals, rfl, hres, hhigh, hlen, rfl⟩ := decodeRegWrite_ok h
    have hcount : BitVec.ofNat 32 vals.length = w1 := by
      rw [hlen, extractLsb'_toNat_of_lt (toNat_lt_of_high_eq_zero rfl hhigh), BitVec.ofNat_toNat, BitVec.setWidth_eq]
    exact .inl ⟨by rw [encode_regWrite, ← hWr, regWord_of_fields hres, hcount], nofun⟩
  · obtain ⟨w1, ws, rfl, hzero, hhigh, hlen, rfl⟩ := decodeTxEnqueue_ok h
    rw [extractLsb'_toNat_of_lt (toNat_lt_of_high_eq_zero rfl hhigh)] at hlen ⊢
    exact .inr ⟨w1, ws, by rw [← hTx, bareWord_of_fields hzero], hlen, rfl⟩
  · obtain ⟨rfl, rfl, rfl⟩ := bareWord_of_decodeBare hRx h
    exact .inl ⟨rfl, nofun⟩
  · obtain ⟨rfl, rfl, rfl⟩ := bareWord_of_decodeBare hTsE h
    exact .inl ⟨rfl, nofun⟩
  · obtain ⟨rfl, rfl, rfl⟩ := bareWord_of_decodeBare hTsD h
    exact .inl ⟨rfl, nofun⟩
  · obtain ⟨rfl, rfl, rfl⟩ := bareWord_of_decodeBare hStR h
    exact .inl ⟨rfl, nofun⟩
  · obtain ⟨hres, -, rfl, rfl⟩ := decodeStatusClear_ok h
    exact .inl ⟨by rw [encode_statusClear, clearWord_of_fields hStC hres], nofun⟩

/-! ### What is refused is answered `INVALID` (30_encoding.md R153 to R155) -/

theorem step_of_invalid {s : State} {c : Caller} {d : List Word32} {rest : List Event} {e : DecodeError}
    (hn : s.NextIsInput) (hc : ∀ h ∈ s.held, h.caller ≠ c) (hi : s.inputs = .cmd c d :: rest)
    (hd : decode .command d = .error e) :
    step s = .next (State.respond { s with inputs := rest } c (responseOpcode d) .invalid []) := by
  rw [step_of_nextIsInput hn, fetchInput_cons hi, fetchEvent_cmd (s := { s with inputs := rest }) hc, fetchCmd, hd]
  rfl

theorem execTxEnqueue_of_invalid {frame : List Byte} {s : State} (h : frameLenOk s.par frame.length = false) :
    execTxEnqueue frame s = .next (s.answer opcTxEnqueue .invalid []) := if_pos h

theorem execStatusClear_of_invalid {mask : BitVec 16} (s : State) (h : maskOk mask = false) :
    execStatusClear mask s = .next (s.answer opcStatusClear .invalid []) := if_pos h

theorem countOk_eq_false {n : Nat} (h : n = 0 ∨ Config.maxRegs < n) : countOk n = false := by
  simp only [countOk, Bool.and_eq_false_iff, decide_eq_false_iff_not]
  omega

theorem execRegRead_of_invalid (aid : Bit) (mms : BitVec 4) (addr : BitVec 16) {count : BitVec 8} (s : State)
    (h : countOk count.toNat = false) :
    execRegRead aid mms addr count s = .next (s.answer opcRegRead .invalid []) := congrArg _ (if_pos h)

theorem execRegWrite_of_invalid (aid : Bit) (mms : BitVec 4) (addr : BitVec 16) {vals : List Word32} (s : State)
    (h : countOk vals.length = false) :
    execRegWrite aid mms addr vals s = .next (s.answer opcRegWrite .invalid []) := congrArg _ (if_pos h)

/-! ### The obligations -/

/-- Settles O1, row by row: the fields of each layout read back as the operands it was laid out from. -/
theorem decodeOfEncodeIsTheInstruction : Obligations.DecodeOfEncodeIsTheInstruction := by
  intro i hw
  cases i with
  | init tscap za wcode => exact decode_encode_init tscap za wcode
  | regRead aid mms addr count => exact decode_encode_regRead aid mms addr count
  | regWrite aid mms addr vals =>
    have hmax : vals.length ≤ 128 := of_decide_eq_true (Bool.and_eq_true_iff.mp hw).2
    exact decode_encode_regWrite aid mms addr (by omega)
  | txEnqueue frame =>
    have hmax : frame.length ≤ 65535 := of_decide_eq_true (Bool.and_eq_true_iff.mp hw).2
    exact decode_encode_txEnqueue (by omega)
  | statusClear mask => exact decode_encode_statusClear (by simpa [Instr.WellFormed, Instr.wf] using hw)
  | shutdown | rxPoll | tsEnable | tsDisable | statusRead => rfl
  | ctrlHdrRd aid mms addr len p => exact decode_encode_ctrlHdrRd aid mms addr len p
  | ctrlHdrWr aid mms addr len p => exact decode_encode_ctrlHdrWr aid mms addr len p
  | dataPoll p => exact decode_encode_dataPoll p
  | dataHdr sv ev ebo p => exact decode_encode_dataHdr sv ev ebo p
  | ctrlEcho dnc hdrb wnr aid mms addr len p =>
    obtain ⟨h0, h1⟩ : ctrlWord dnc hdrb wnr aid mms addr len p ≠ 0#32 ∧
        ctrlWord dnc hdrb wnr aid mms addr len p ≠ 0xFFFFFFFF#32 := by
      simpa [Instr.WellFormed, Instr.wf, ctrlWord] using hw
    exact decode_encode_ctrlEcho h0 h1
  | ctrlEchoNoreply0 | ctrlEchoNoreply1 => rfl
  | ftrNodata sv ev b => exact decode_encode_rowOfMarks 0#1 sv ev b
  | ftrCont b => exact decode_encode_rowOfMarks 1#1 0#1 0#1 b
  | ftrSof b => exact decode_encode_rowOfMarks 1#1 1#1 0#1 b
  | ftrEof b => exact decode_encode_rowOfMarks 1#1 0#1 1#1 b
  | ftrSofEof b => exact decode_encode_rowOfMarks 1#1 1#1 1#1 b

/-- Settles O2, port by port: each wire layout is laid out from the fields that are read from it. -/
theorem encodeOfDecodedWireWordIsTheWord : Obligations.EncodeOfDecodedWireWordIsTheWord := by
  intro port w i hport h
  cases port with
  | command => exact absurd rfl hport
  | outbound => exact ⟨encode_of_decodeOutbound h, decode_outbound_port h⟩
  | ctrlIn =>
    refine ⟨?_, decode_inbound_port (.inl rfl) h⟩
    cases h
    exact encode_decodeCtrlIn w
  | dataIn =>
    refine ⟨?_, decode_inbound_port (.inr rfl) h⟩
    cases h
    exact encode_decodeDataIn w

/-- Settles O3: every layout but TX_ENQUEUE is laid out from its fields, and the words of TX_ENQUEUE are enough for LEN bytes. -/
theorem decodedDescriptorDeterminesItsWords : Obligations.DecodedDescriptorDeterminesItsWords := by
  intro d i h
  refine ⟨decode_command_port h, ?_⟩
  rcases decode_command_cases h with ⟨henc, hne⟩ | ⟨len, ws, rfl, hws, rfl⟩
  · exact ⟨fun frame hi => absurd hi (hne frame), fun _ => henc⟩
  · refine ⟨fun frame hi => ?_, fun hne => absurd rfl (hne _)⟩
    cases hi
    have hlen := unpack_length hws
    exact ⟨len, ws, rfl, hlen, by rw [hlen, hws], by rw [hlen]; rfl⟩

/-- Settles O4, by running the decoder on the ten words. -/
theorem sampleWordsDecode : Obligations.SampleWordsDecode := by
  unfold Obligations.SampleWordsDecode
  decide

/-- Settles O9: the port answers a descriptor that it cannot decode at once, with the opcode that the response repeats. -/
theorem invalidDescriptorIsAnswered : Obligations.InvalidDescriptorIsAnswered := by
  intro s c d rest e hn hc hi hd
  refine ⟨responseOpcode d, step_of_invalid hn hc hi hd, ?_, ?_⟩
  · rintro rfl
    rfl
  · rintro w0 ws rfl
    rfl

/-- Settles O10: each meaning makes its operand check before it looks at the phase. -/
theorem operandOutOfRangeIsInvalid : Obligations.OperandOutOfRangeIsInvalid := by
  refine ⟨?count, ?vals, ?frame, ?mask⟩
  case count =>
    intro s aid mms addr count h
    exact execRegRead_of_invalid aid mms addr s (countOk_eq_false h)
  case vals =>
    intro s aid mms addr vals h
    exact execRegWrite_of_invalid aid mms addr s (countOk_eq_false (h.imp_left List.length_eq_zero_iff.mpr))
  case frame =>
    intro s frame h
    refine execTxEnqueue_of_invalid ?_
    rcases h with rfl | h
    · rfl
    · simp [frameLenOk, h]
  case mask =>
    intro s mask h
    exact execStatusClear_of_invalid s (by simpa [maskOk, reservedMask] using h)

end Sys2Proof.Machine

/-! PROOFS of the family 41_credit_tracker.md: what a completed exchange does to credit, sync and the footer flags. A footer has
three outcomes, and the end of the exchange, with its stall check, leaves the credit tracker alone; so each statement reads off
the outcome. The elements of the tracker and those that no footer processes are gathered in two records, so that what an
operation keeps is one equation. -/

namespace Sys2Proof.Machine

/-! ### The credit tracker and what no footer processes -/

/-- The elements that 41_credit_tracker.md keeps, but for the stall count, which a teardown clears. -/
structure Tracker where
  txc : BitVec 5
  rca : BitVec 5
  syncSeen : Bool
  stUnsync : Bool
  stExst : Bool
  stHdrb : Bool
  stFtrerr : Bool
  cntFtrErr : BitVec 32

def State.tracker (s : State) : Tracker :=
  ⟨s.txc, s.rca, s.syncSeen, s.stUnsync, s.stExst, s.stHdrb, s.stFtrerr, s.cntFtrErr⟩

/-- The elements that steps 1 to 5 of `data_complete` leave (44_transfer_scheduler.md R319). -/
structure Unprocessed where
  par : Params
  cfgWcode : BitVec 2
  cfgW : Nat
  cfgZa : Bool
  cfgTscap : Bool
  phase : Phase
  fatalCause : FatalCause
  slot : Option Txn
  ctrlq : List Txn
  txq : List (List Byte)
  stUnreach : Bool
  tsEn : Bool
  inputs : List Event
  held : List Submission
  portCaller : Caller

def State.unprocessed (s : State) : Unprocessed :=
  ⟨s.par, s.cfgWcode, s.cfgW, s.cfgZa, s.cfgTscap, s.phase, s.fatalCause, s.slot, s.ctrlq, s.txq, s.stUnreach, s.tsEn,
    s.inputs, s.held, s.portCaller⟩

/-- What the receive side shows of a frame in progress and of the frames it delivered or lost (10_state.md R44, R45, R48). -/
structure Reception where
  rxst : RxState
  rxq : List RxFrame
  cntRxDrop : BitVec 32
  cntRxOvf : BitVec 32

def State.reception (s : State) : Reception := ⟨s.rxst, s.rxq, s.cntRxDrop, s.cntRxOvf⟩

/-! #### The receive and the transmit side -/

theorem RxWrites.tracker_eq {s t : State} (h : RxWrites s t) : t.tracker = s.tracker := by
  obtain ⟨_, _, _, _, _, _, rfl⟩ := h; rfl

theorem RxWrites.unprocessed_eq {s t : State} (h : RxWrites s t) : t.unprocessed = s.unprocessed := by
  obtain ⟨_, _, _, _, _, _, rfl⟩ := h; rfl

theorem RxWrites.stallPolls_eq {s t : State} (h : RxWrites s t) : t.stallPolls = s.stallPolls := by
  obtain ⟨_, _, _, _, _, _, rfl⟩ := h; rfl

theorem RxWrites.txcur_eq {s t : State} (h : RxWrites s t) : t.txcur = s.txcur := by
  obtain ⟨_, _, _, _, _, _, rfl⟩ := h; rfl

theorem RxWrites.xlen_eq {s t : State} (h : RxWrites s t) : t.xlen = s.xlen := by
  obtain ⟨_, _, _, _, _, _, rfl⟩ := h; rfl

theorem TxWrites.tracker_eq {s t : State} (h : TxWrites s t) : t.tracker = s.tracker := by
  obtain ⟨_, _, _, rfl, -, -⟩ := h; rfl

theorem TxWrites.unprocessed_eq {s t : State} (h : TxWrites s t) : t.unprocessed = s.unprocessed := by
  obtain ⟨_, _, _, rfl, -, -⟩ := h; rfl

theorem TxWrites.stallPolls_eq {s t : State} (h : TxWrites s t) : t.stallPolls = s.stallPolls := by
  obtain ⟨_, _, _, rfl, -, -⟩ := h; rfl

theorem TxWrites.reception_eq {s t : State} (h : TxWrites s t) : t.reception = s.reception := by
  obtain ⟨_, _, _, rfl, -, -⟩ := h; rfl

theorem chunkCommitted_writes (s : State) : TxWrites s s.chunkCommitted := txCommit_eq s ▸ txCommit_writes s

theorem chunkRejected_writes (s : State) : TxWrites s s.chunkRejected := txReject_eq s ▸ txReject_writes s

/-- A committed chunk moves the cursor, or its frame is no longer in flight (43_data_framer.md R263). -/
theorem chunkCommitted_txcur (s : State) :
    s.chunkCommitted.txcur =
      s.txcur.bind fun c => if c.cur + s.xlen = c.frame.length then none else some ⟨c.frame, c.cur + s.xlen, 0⟩ := by
  unfold State.chunkCommitted
  cases hc : s.txcur with
  | none => exact hc
  | some c => simp only [apply_ite State.txcur, Option.bind_some]

/-- A rejected chunk is counted, or its frame is no longer in flight (43_data_framer.md R264). -/
theorem chunkRejected_txcur (s : State) :
    s.chunkRejected.txcur =
      s.txcur.bind fun c =>
        if s.par.parityRetryMax < c.hret + 1 then none else some ⟨c.frame, c.cur, c.hret + 1⟩ := by
  unfold State.chunkRejected
  cases hc : s.txcur with
  | none => exact hc
  | some c => simp only [apply_ite State.txcur, Option.bind_some]

/-! #### The end of the exchange (41_credit_tracker.md R209, 44_transfer_scheduler.md R318, R321) -/

theorem stallCheck_tracker (s : State) : (stallCheck s).tracker = s.tracker := by
  rw [stallCheck_eq]; rfl

theorem stallCheck_reception (s : State) : (stallCheck s).reception = s.reception := by
  rw [stallCheck_eq]; rfl

theorem finishDrain_tracker (s : State) : (finishDrain s).tracker = s.tracker := by
  rw [finishDrain_eq]; rfl

theorem enterFailed_tracker (s : State) : (enterFailed s).tracker = s.tracker := by
  rw [enterFailed_eq]; rfl

theorem finishExchange_tracker (s : State) : (finishExchange s).tracker = s.tracker := by
  rcases finishExchange_cases s with ⟨-, h⟩ | ⟨-, -, h⟩ | ⟨-, -, h⟩ <;> rw [h]
  · exact finishDrain_tracker (clearExchange s)
  · exact enterFailed_tracker (clearExchange s)
  · rfl

theorem xferFault_tracker (s : State) : (xferFault s).tracker = s.tracker := by
  unfold xferFault
  split
  · exact finishDrain_tracker (clearExchange (s.emit .xferFault))
  · exact enterFailed_tracker _

/-- The end of an exchange drops a receive frame without count, so it shows nothing where none is in progress. -/
theorem finishExchange_reception {s : State} (h : s.rxst = .idle) : (finishExchange s).reception = s.reception := by
  rcases finishExchange_cases s with ⟨-, hend⟩ | ⟨-, -, hend⟩ | ⟨-, -, hend⟩ <;> rw [hend]
  · rw [finishDrain_eq, State.reception, State.reception, h]; rfl
  · rw [enterFailed_eq, State.reception, State.reception, h]; rfl
  · rfl

/-- The end of an exchange is within the frame of a footer: only a failure or a teardown empties the slot and the control queue,
and only a teardown the transmit queue. -/
theorem finishExchange_frame (s : State) : FooterFrame s (finishExchange s) := by
  rcases finishExchange_cases s with ⟨-, h⟩ | ⟨-, -, h⟩ | ⟨-, -, h⟩ <;> rw [h]
  · rw [finishDrain_eq]
    exact ⟨rfl, rfl, rfl, rfl, rfl, rfl, rfl, rfl, rfl, rfl, nofun, fun hp => absurd rfl hp⟩
  · rw [enterFailed_eq]
    exact ⟨rfl, rfl, rfl, rfl, rfl, rfl, rfl, rfl, rfl, rfl, nofun, fun _ => rfl⟩
  · exact ⟨rfl, rfl, rfl, rfl, rfl, rfl, rfl, rfl, rfl, rfl, fun _ => ⟨rfl, rfl⟩, fun _ => rfl⟩

theorem finishExchange_stallCheck_frame (s : State) : FooterFrame s (finishExchange (stallCheck s)) := by
  have h := finishExchange_frame (stallCheck s)
  rw [stallCheck_eq] at h ⊢
  exact h

theorem FooterFrame.of_unprocessed {s u t : State} (hu : u.unprocessed = s.unprocessed) (h : FooterFrame u t) :
    FooterFrame s t := by
  simp only [State.unprocessed, Unprocessed.mk.injEq] at hu
  obtain ⟨hpar, hcode, hw, hza, hts, -, -, hslot, hctrlq, htxq, hunreach, hen, hin, hheld, hport⟩ := hu
  simpa only [FooterFrame, hpar, hcode, hw, hza, hts, hslot, hctrlq, htxq, hunreach, hen, hin, hheld, hport] using h

/-! ### A control exchange (42_control_transactions.md R228 to R231, 44_transfer_scheduler.md R320) -/

/-- An echo word ends its exchange after the slot, the queue behind it, the warning flag and the history were written. -/
theorem exec_ctrlIn_writes {i : Instr} {s t : State} (hp : i.port = .ctrlIn) (h : exec i s = .next t) :
    ∃ slot queue unreach history,
      t = finishExchange { s with slot := slot, ctrlq := queue, stUnreach := unreach, history := history } := by
  rw [exec_ctrlIn hp] at h
  obtain ⟨-, a, -, rfl⟩ := completeCtrl_next.mp h
  obtain ⟨slot, queue, unreach, history, hreply⟩ := ctrlReply_writes (wireWord i) a (s.emit (.xferIn s.xin))
  exact ⟨slot, queue, unreach, history, by rw [hreply]; rfl⟩

/-! ### The three outcomes of a footer (44_transfer_scheduler.md R319 steps 1 to 5) -/

/-- The fields of a footer other than its marks, with a parity bit. -/
def Footer.bits (f : Footer) (p : Bit) : FooterBits :=
  { exst := f.exst, hdrb := f.hdrb, sync := f.sync, rca := f.rca, vs := f.vs, swo := f.swo, fd := f.fd, ebo := f.ebo
    rtsa := f.rtsa, rtsp := f.rtsp, txc := f.txc, p := p }

/-- The state after the footer `f` of the inbound string in `s` is processed, before the stall check. -/
inductive FooterOutcome (s : State) (f : Footer) (p : Bit) : State → Prop
  /-- it is valid and its sync flag does not fall -/
  | held (hv : ValidFooter s f p) (hs : ¬(s.syncSeen = true ∧ f.sync = 0#1)) :
      FooterOutcome s f p (rxChunk f (s.xin.take s.cfgW) (s.afterFooter (f.bits p)))
  /-- it is valid and its sync flag falls -/
  | falls (hv : ValidFooter s f p) (hseen : s.syncSeen = true) (hsync : f.sync = 0#1) :
      FooterOutcome s f p (s.afterSyncFall f)
  /-- it is invalid -/
  | invalid (hv : ¬ValidFooter s f p) : FooterOutcome s f p s.afterInvalidFooter

/-- What a footer row does where its footer arrives: one of the outcomes, the stall check, and the end of the exchange. -/
theorem exec_footer_outcome {i : Instr} {f : Footer} {p : Bit} {s : State} (h : footerRow i = some (f, p))
    (ha : s.FooterArrives (footerWord f p)) :
    ∃ u, FooterOutcome s f p u ∧ exec i s = .next (finishExchange (stallCheck u)) := by
  rw [exec_footer_arrives h ha]
  by_cases hv : ValidFooter s f p
  · rw [if_pos ⟨hv.1, hv.2⟩]
    by_cases hs : s.syncSeen = true ∧ f.sync = 0#1
    · exact ⟨_, .falls hv hs.1 hs.2, by rw [← validFooter_falls f _ hs.1 hs.2]; rfl⟩
    · exact ⟨_, .held hv hs, by rw [← validFooter_held f.dv f.sv f.ev (f.bits p) (rxChunk f _) hs]; rfl⟩
  · rw [if_neg (show ¬(_ ∧ _) from hv)]
    exact ⟨_, .invalid hv, by rw [← invalidFooter_eq]; rfl⟩

/-! #### What each outcome leaves -/

theorem afterFooter_tracker (s : State) (b : FooterBits) :
    (s.afterFooter b).tracker =
      { txc := b.txc, rca := b.rca, syncSeen := b.sync == 1#1, stUnsync := s.stUnsync, stExst := s.stExst || b.exst == 1#1
        stHdrb := s.stHdrb || b.hdrb == 1#1, stFtrerr := s.stFtrerr, cntFtrErr := s.cntFtrErr } := by
  simp only [State.afterFooter, apply_ite State.tracker, (chunkCommitted_writes _).tracker_eq,
    (chunkRejected_writes _).tracker_eq, ite_self]
  rfl

theorem afterFooter_unprocessed (s : State) (b : FooterBits) : (s.afterFooter b).unprocessed = s.unprocessed := by
  simp only [State.afterFooter, apply_ite State.unprocessed, (chunkCommitted_writes _).unprocessed_eq,
    (chunkRejected_writes _).unprocessed_eq, ite_self]
  rfl

theorem afterFooter_stallPolls (s : State) (b : FooterBits) :
    (s.afterFooter b).stallPolls = if b.txc = 0#5 then s.stallPolls else 0 := by
  simp only [State.afterFooter, apply_ite State.stallPolls, (chunkCommitted_writes _).stallPolls_eq,
    (chunkRejected_writes _).stallPolls_eq, ite_self]

theorem afterFooter_txcur (s : State) (b : FooterBits) :
    (s.afterFooter b).txcur =
      if s.xkind = .data then (if b.hdrb = 1#1 then s.chunkRejected.txcur else s.chunkCommitted.txcur) else s.txcur := by
  simp only [State.afterFooter, apply_ite State.txcur, chunkRejected_txcur, chunkCommitted_txcur]
  rfl

theorem afterSyncFall_unprocessed (s : State) (f : Footer) : (s.afterSyncFall f).unprocessed = s.unprocessed :=
  (dropIfAsm_writes _).unprocessed_eq

theorem afterInvalidFooter_tracker (s : State) :
    s.afterInvalidFooter.tracker = { s.tracker with stFtrerr := true, cntFtrErr := s.cntFtrErr + 1#32 } := by
  simp only [State.afterInvalidFooter, apply_ite State.tracker, (chunkCommitted_writes _).tracker_eq,
    (dropIfAsm_writes _).tracker_eq, ite_self]
  rfl

theorem afterInvalidFooter_unprocessed (s : State) : s.afterInvalidFooter.unprocessed = s.unprocessed := by
  simp only [State.afterInvalidFooter, apply_ite State.unprocessed, (chunkCommitted_writes _).unprocessed_eq,
    (dropIfAsm_writes _).unprocessed_eq, ite_self]
  rfl

theorem afterInvalidFooter_stallPolls (s : State) : s.afterInvalidFooter.stallPolls = s.stallPolls := by
  simp only [State.afterInvalidFooter, apply_ite State.stallPolls, (chunkCommitted_writes _).stallPolls_eq,
    (dropIfAsm_writes _).stallPolls_eq, ite_self]
  rfl

theorem afterInvalidFooter_txcur (s : State) :
    s.afterInvalidFooter.txcur = if s.xkind = .data then s.chunkCommitted.txcur else s.txcur := by
  have hdrop := dropIfAsm_writes { s.received with cntFtrErr := s.cntFtrErr + 1#32, stFtrerr := true }
  simp only [State.afterInvalidFooter, apply_ite State.txcur, chunkCommitted_txcur, hdrop.txcur_eq, hdrop.xlen_eq]
  rfl

theorem dropIfAsm_reception (s : State) :
    s.dropIfAsm.reception =
      { rxst := .idle, rxq := s.rxq, cntRxDrop := if s.rxst = .asm then s.cntRxDrop + 1#32 else s.cntRxDrop
        cntRxOvf := s.cntRxOvf } := by
  rw [← rxDiscard_true, rxDiscard_eq]
  simp only [State.reception, and_true]

theorem afterInvalidFooter_reception (s : State) :
    s.afterInvalidFooter.reception =
      { rxst := .idle, rxq := s.rxq, cntRxDrop := if s.rxst = .asm then s.cntRxDrop + 1#32 else s.cntRxDrop
        cntRxOvf := s.cntRxOvf } := by
  simp only [State.afterInvalidFooter, apply_ite State.reception, (chunkCommitted_writes _).reception_eq,
    dropIfAsm_reception, ite_self]
  rfl

section
variable {s u : State} {f : Footer} {p : Bit}

theorem FooterOutcome.unprocessed_eq (h : FooterOutcome s f p u) : u.unprocessed = s.unprocessed := by
  cases h with
  | held hv hs => rw [(rxChunk_writes _ _ _).unprocessed_eq, afterFooter_unprocessed]
  | falls hv hseen hsync => exact afterSyncFall_unprocessed s f
  | invalid hv => exact afterInvalidFooter_unprocessed s

/-- A valid footer replaces the credit and the receive availability, latches its flags, and a falling sync flag is noted
(41_credit_tracker.md R200, R211 to R213). -/
theorem FooterOutcome.tracker_of_valid (h : FooterOutcome s f p u) (hv : ValidFooter s f p) :
    u.tracker =
      { txc := f.txc, rca := f.rca, syncSeen := f.sync == 1#1, stUnsync := s.stUnsync || (s.syncSeen && f.sync == 0#1)
        stExst := s.stExst || f.exst == 1#1, stHdrb := s.stHdrb || f.hdrb == 1#1, stFtrerr := s.stFtrerr
        cntFtrErr := s.cntFtrErr } := by
  cases h with
  | held hv hs =>
    have hkept : (s.syncSeen && f.sync == 0#1) = false := by simpa using hs
    rw [(rxChunk_writes _ _ _).tracker_eq, afterFooter_tracker, hkept, Bool.or_false]
    rfl
  | falls hv hseen hsync =>
    rw [State.afterSyncFall, (dropIfAsm_writes _).tracker_eq, hseen, hsync]
    simp [State.tracker, State.received]
  | invalid hn => exact absurd hv hn

theorem FooterOutcome.stallPolls_of_valid (h : FooterOutcome s f p u) (hv : ValidFooter s f p) :
    u.stallPolls = if f.txc = 0#5 then s.stallPolls else 0 := by
  cases h with
  | held hv hs => rw [(rxChunk_writes _ _ _).stallPolls_eq, afterFooter_stallPolls]; rfl
  | falls hv hseen hsync => exact (dropIfAsm_writes _).stallPolls_eq
  | invalid hn => exact absurd hv hn

theorem FooterOutcome.eq_of_falls (h : FooterOutcome s f p u) (hv : ValidFooter s f p)
    (hs : s.syncSeen = true ∧ f.sync = 0#1) : u = s.afterSyncFall f := by
  cases h with
  | held hv hn => exact absurd hs hn
  | falls hv hseen hsync => rfl
  | invalid hn => exact absurd hv hn

theorem FooterOutcome.eq_of_held (h : FooterOutcome s f p u) (hv : ValidFooter s f p)
    (hs : ¬(s.syncSeen = true ∧ f.sync = 0#1)) : u = rxChunk f (s.xin.take s.cfgW) (s.afterFooter (f.bits p)) := by
  cases h with
  | held hv hn => rfl
  | falls hv hseen hsync => exact absurd ⟨hseen, hsync⟩ hs
  | invalid hn => exact absurd hv hn

theorem FooterOutcome.eq_of_invalid (h : FooterOutcome s f p u) (hv : ¬ValidFooter s f p) : u = s.afterInvalidFooter := by
  cases h with
  | held hn hs => exact absurd hn hv
  | falls hn hseen hsync => exact absurd hn hv
  | invalid hn => rfl

end

/-! ### The stall check of a running engine (41_credit_tracker.md R209) -/

theorem txAvail_iff {s : State} : txAvail s = true ↔ s.txcur ≠ none ∨ s.txq ≠ [] := by
  simp [txAvail, Option.isSome_iff_ne_none]

/-- What waits is not touched by the end of the exchange, so the check may be read off its end. -/
theorem settled_of_exchanging {u : State} (hp : u.phase = .exchanging) :
    u.settled =
      if (u.txcur ≠ none ∨ u.txq ≠ []) ∧ u.txc = 0#5 ∧ u.par.stallPollMax ≤ u.stallPolls then
        State.failedWith { u.over with phase := .idle } .linkStalled
      else { u.over with phase := .idle } := by
  have hdrain : u.phase ≠ .draining := by simp [hp]
  simp only [State.settled, State.ended, State.Stalled, txAvail_iff, if_neg hdrain]
  rfl

/-! ### The credit gate (41_credit_tracker.md R205) -/

/-- From `s` to `t` a data chunk was put in flight for one credit; or none was, and the credit changed only at the end of a data
or poll exchange or by INIT. -/
def CreditMove (s t : State) : Prop :=
  (s.xkind ≠ .data ∧ t.xkind = .data ∧ 1 ≤ s.txc.toNat ∧ t.txc.toNat + 1 = s.txc.toNat) ∨
    ((t.xkind = .data → s.xkind = .data) ∧
      (t.txc = s.txc ∨ ((s.xkind = .data ∨ s.xkind = .poll) ∧ t.xkind = .none) ∨
        ((s.phase = .uninit ∨ s.phase = .stopped) ∧ t.phase = .idle ∧ t.txc = 0#5)))

theorem CreditMove.of_same {s t : State} (hk : t.xkind = s.xkind) (hc : t.txc = s.txc) : CreditMove s t :=
  .inr ⟨fun h => hk ▸ h, .inl hc⟩

theorem CreditMove.of_xkind {s t : State} {k : XKind} (hk : t.xkind = k) (hne : k ≠ .data) (hc : t.txc = s.txc) :
    CreditMove s t := .inr ⟨fun h => absurd (hk.symm.trans h) hne, .inl hc⟩

theorem CommandCase.creditMove {s t : State} (h : CommandCase s t) : CreditMove s t := by
  cases h with
  | answered u opc code data hu ht =>
    obtain ⟨_, _, _, _, _, _, _, _, _, _, rfl⟩ := hu
    subst ht
    exact .of_same rfl rfl
  | initialized tscap za wcode hp ht =>
    subst ht
    exact .inr ⟨nofun, .inr (.inr ⟨hp, rfl, rfl⟩)⟩
  | stopped hp ht =>
    rw [teardown_eq] at ht
    subst ht
    exact .of_same rfl rfl
  | enqueued _ _ ht | polled _ _ _ ht | draining _ ht | slotted _ _ _ _ ht | lined _ _ _ _ ht | held _ _ _ ht =>
    subst ht
    exact .of_same rfl rfl

/-- The scheduler selects a data chunk only with credit (44_transfer_scheduler.md R315). -/
theorem credit_of_select_data {s : State} (h : select s = .data) : s.txc ≠ 0#5 := by
  unfold select at h
  split_ifs at h with _ hdata
  exact hdata.2

/-- Spending one of at least one credit. -/
theorem toNat_sub_one_add_one {c : BitVec 5} (h : c ≠ 0#5) : 1 ≤ c.toNat ∧ (c - 1#5).toNat + 1 = c.toNat := by
  bv_omega

theorem exec_outbound_creditMove {i : Instr} {s t : State} (hp : i.port = .outbound) (hi : s.Inv)
    (h : exec i s = .next t) : CreditMove s t := by
  cases i <;> try cases hp
  case ctrlHdrRd | ctrlHdrWr =>
    obtain ⟨a, -, -, rfl⟩ := issueCtrl_next.mp h
    exact .of_xkind (k := .ctrl) rfl nofun rfl
  case dataPoll =>
    obtain ⟨-, rfl⟩ := execDataPoll_next.mp h
    exact .of_xkind (k := .poll) rfl nofun rfl
  case dataHdr =>
    obtain ⟨c, q, -, hsched, rfl⟩ := execDataHdr_next.mp h
    obtain ⟨hsel, hhdr⟩ := scheduled_iff.mp hsched
    have hnone : s.xkind = .none := hi.xkind_none (.inl (scheduledHeader_some hhdr).1)
    obtain ⟨hone, hspent⟩ := toNat_sub_one_add_one (credit_of_select_data hsel)
    exact .inl ⟨by simp [hnone], rfl, hone, hspent⟩

/-- A control exchange ends without a change of credit (41_credit_tracker.md R203). -/
theorem exec_ctrlIn_txc {i : Instr} {s t : State} (hp : i.port = .ctrlIn) (h : exec i s = .next t) : t.txc = s.txc := by
  obtain ⟨_, _, _, _, rfl⟩ := exec_ctrlIn_writes hp h
  exact congrArg Tracker.txc (finishExchange_tracker _)

/-- A footer completes only a data or a poll exchange. -/
theorem exec_dataIn_xkind {i : Instr} {s t : State} (hp : i.port = .dataIn)
    (hx : s.phase = .exchanging ∨ s.phase = .draining → s.xkind ≠ .none) (h : exec i s = .next t) :
    s.xkind = .data ∨ s.xkind = .poll := by
  obtain ⟨f, p, hf⟩ := footerRow_of_port hp
  rw [exec_footerRow hf] at h
  obtain ⟨⟨hflight, hctrl, -, -⟩, -⟩ := completeData_next.mp h
  cases hk : s.xkind with
  | none => exact absurd hk (hx hflight)
  | ctrl => exact absurd hk hctrl
  | data => exact .inl rfl
  | poll => exact .inr rfl

theorem exec_inbound_creditMove {i : Instr} {s t : State} (hp : i.port = .ctrlIn ∨ i.port = .dataIn)
    (hx : s.phase = .exchanging ∨ s.phase = .draining → s.xkind ≠ .none) (h : exec i s = .next t) : CreditMove s t := by
  have hend : t.xkind = .none := exec_inbound_xkind hp h
  rcases hp with hp | hp
  · exact .of_xkind hend nofun (exec_ctrlIn_txc hp h)
  · exact .inr ⟨fun hd => absurd (hend.symm.trans hd) nofun, .inr (.inl ⟨exec_dataIn_xkind hp hx h, hend⟩)⟩

/-! ### The obligations -/

/-- Settles O29: a reply writes the slot, its queue, the warning flag and the history, and the end of the exchange nothing of the
data path. -/
theorem controlCompletionLeavesTheDataPath : Obligations.ControlCompletionLeavesTheDataPath := by
  intro s t i hport hp hf h
  obtain ⟨_, _, _, _, rfl⟩ := exec_ctrlIn_writes hport h
  rw [finishExchange_idle (by exact hp) (by exact hf)]
  and_intros <;> rfl

/-- Settles O37: both outcomes of a valid footer leave the same tracker, and the end of the exchange keeps it. -/
theorem validFooterReplacesCredit : Obligations.ValidFooterReplacesCredit := by
  intro s i f p h ha hv
  obtain ⟨u, hu, he⟩ := exec_footer_outcome h ha
  have htr := (finishExchange_tracker (stallCheck u)).trans ((stallCheck_tracker u).trans (hu.tracker_of_valid hv))
  simp only [State.tracker, Tracker.mk.injEq] at htr
  obtain ⟨htxc, hrca, hsync, hunsync, hexst, hhdrb, hftrerr, hcnt⟩ := htr
  exact ⟨_, he, htxc, hrca, hsync, hexst, hhdrb, hunsync, hftrerr, hcnt,
    .of_unprocessed hu.unprocessed_eq (finishExchange_stallCheck_frame u)⟩

/-- Settles O38: the outcome of an invalid footer leaves the tracker but for the error count and its flag, and no receive frame in
progress; the end of the exchange keeps both. -/
theorem invalidFooterIsCountedAndTrustsNothing : Obligations.InvalidFooterIsCountedAndTrustsNothing := by
  intro s i f p h ha hv
  obtain ⟨u, hu, he⟩ := exec_footer_outcome h ha
  have hframe := FooterFrame.of_unprocessed hu.unprocessed_eq (finishExchange_stallCheck_frame u)
  cases hu.eq_of_invalid hv
  have hrx := afterInvalidFooter_reception s
  have hnone : (stallCheck s.afterInvalidFooter).rxst = .idle :=
    congrArg Reception.rxst ((stallCheck_reception _).trans hrx)
  have htr := (finishExchange_tracker _).trans ((stallCheck_tracker _).trans (afterInvalidFooter_tracker s))
  have hrx' := (finishExchange_reception hnone).trans ((stallCheck_reception _).trans hrx)
  simp only [State.tracker, Tracker.mk.injEq] at htr
  simp only [State.reception, Reception.mk.injEq] at hrx'
  obtain ⟨htxc, hrca, hsync, hunsync, hexst, hhdrb, hftrerr, hcnt⟩ := htr
  obtain ⟨hst, hrxq, hdrop, hovf⟩ := hrx'
  exact ⟨_, he, hcnt, hftrerr, htxc, hrca, hsync, hunsync, hexst, hhdrb, hst, hrxq, hovf, hdrop, hframe⟩

/-- Settles O40: the outcome of a falling sync flag, then the stall check and the end. -/
theorem syncFallResetsBothDirections : Obligations.SyncFallResetsBothDirections := by
  intro s i f p h ha hv hf hseen hsync
  obtain ⟨u, hu, he⟩ := exec_footer_outcome h ha
  have hfatal : u.fatalCause = .none := (congrArg Unprocessed.fatalCause hu.unprocessed_eq).trans hf
  rw [he, finishExchange_stallCheck hfatal, hu.eq_of_falls hv ⟨hseen, hsync⟩]

/-- Settles O46: the stall check sees the credit, the stall count and the frame in flight that the footer's outcome leaves. -/
theorem zeroCreditPollsStallTheLink : Obligations.ZeroCreditPollsStallTheLink := by
  intro s i f p h ha hp hf
  obtain ⟨u, hu, he⟩ := exec_footer_outcome h ha
  have hk := hu.unprocessed_eq
  have hfatal : u.fatalCause = .none := (congrArg Unprocessed.fatalCause hk).trans hf
  have hphase : u.phase = .exchanging := (congrArg Unprocessed.phase hk).trans hp
  have hpar : u.par = s.par := congrArg Unprocessed.par hk
  rw [finishExchange_stallCheck hfatal, settled_of_exchanging hphase, hpar] at he
  refine ⟨{ u.over with phase := .idle }, he, rfl, hfatal, congrArg Unprocessed.slot hk, congrArg Unprocessed.ctrlq hk,
    congrArg Unprocessed.txq hk, rfl, fun hv => ?valid, fun hv => ?invalid⟩
  case valid =>
    refine ⟨congrArg Tracker.txc (hu.tracker_of_valid hv), hu.stallPolls_of_valid hv, fun hs => ?_, fun hs => ?_⟩
    · cases hu.eq_of_falls hv hs
      exact (dropIfAsm_writes _).txcur_eq
    · cases hu.eq_of_held hv hs
      exact (rxChunk_writes _ _ _).txcur_eq.trans (afterFooter_txcur s (f.bits p))
  case invalid =>
    cases hu.eq_of_invalid hv
    exact ⟨congrArg Tracker.txc (afterInvalidFooter_tracker s), afterInvalidFooter_stallPolls s, afterInvalidFooter_txcur s⟩

/-- Settles O55: a data chunk is issued from an idle engine that `select` found with credit; of all other steps only a footer's
completion and INIT write the credit. -/
theorem dataChunkNeedsCredit : Obligations.DataChunkNeedsCredit := by
  intro s t hi hs
  change CreditMove s t
  cases step_next_cases hs with
  | command c d s0 i ht hd he =>
    obtain ⟨inputs, held, rfl, -⟩ := ht.fewer
    exact (exec_command_case (decode_command_port hd) he).creditMove
  | invalid c d s0 e ht hd he =>
    obtain ⟨inputs, held, rfl, -⟩ := ht.fewer
    subst he
    exact .of_same rfl rfl
  | queued c d rest hq he =>
    subst he
    exact .of_same rfl rfl
  | wake rest hq he =>
    subst he
    unfold wake
    split <;> exact .of_same rfl rfl
  | idle s0 ht hw he =>
    obtain ⟨inputs, rfl, -⟩ := ht.keeps
    subst he
    exact .of_same rfl rfl
  | issue s0 w i ht hw hd he =>
    obtain ⟨inputs, rfl, -⟩ := ht.keeps
    exact exec_outbound_creditMove (s := { s with inputs := inputs }) (decode_outbound_port hd)
      (hi.withAgents inputs s.held s.portCaller) he
  | complete bytes rest i hq hl hd he =>
    have hport := decode_inbound_port (inboundPort_inbound s) hd ▸ inboundPort_inbound s
    exact exec_inbound_creditMove (s := { s with inputs := rest, xin := bytes }) hport hi.exchange.mpr he
  | fault rest hq hp he =>
    subst he
    exact .of_xkind (xferFault_xkind _) nofun (congrArg Tracker.txc (xferFault_tracker { s with inputs := rest }))

end Sys2Proof.Machine

/-! PROOFS of the family 42_control_transactions.md: what a control echo is classified as and what its reply leaves, the control
header that is sent, how a REG command is submitted or held, and the bound on the exchanges of a transaction. Every echo row is
`ctrl_complete` with its word, so each statement about an echo is its class, then what the reply of that class leaves. -/

namespace Sys2Proof.Machine

open Sys2Proof.Laws (ctrlWord_marks)

/-! ### The header of a transaction (40_wire_codec.md R172, 42_control_transactions.md R220) -/

/-- The parity bit is no field of an echo. -/
theorem echoFields_withParity (sense : ParitySense) (h0 : Word32) :
    echoFields (withParity sense h0) = echoFields h0 := by
  simp (disch := decide) only [echoFields, extractLsb'_withParity]

/-- Two words with consistent parity and the same echo fields are equal. -/
theorem eq_of_echoFields {sense : ParitySense} {v w : Word32} (hv : parityOk sense v = true) (hw : parityOk sense w = true)
    (h : echoFields v = echoFields w) : v = w := by
  have hbits : ∀ x : Word32, x.extractLsb' 1 31 = (echoFields x).dnc ++ (echoFields x).hdrb ++ (echoFields x).wnr ++
      (echoFields x).aid ++ (echoFields x).mms ++ (echoFields x).addr ++ (echoFields x).len := by
    intro x
    simp (disch := decide) only [echoFields, BitVec.extractLsb'_append_extractLsb'_eq_extractLsb']
  exact eq_of_parityOk hv hw (by rw [hbits v, hbits w, h])

theorem Txn.Made.parityOk_hdr {par : Params} {t : Txn} (h : t.Made par) : parityOk par.paritySense t.hdr = true := by
  rw [h.header]
  exact parityOk_withParity _ (ctrlWord_parity ..)

theorem Txn.Made.echoFields_hdr {par : Params} {t : Txn} (h : t.Made par) :
    echoFields t.hdr =
      { dnc := 0#1, hdrb := 0#1, wnr := t.op.wnr, aid := t.aid, mms := t.mms, addr := t.addr
        len := BitVec.ofNat 7 (t.n - 1) } := by
  rw [h.header, encodeCtrlHeader, echoFields_withParity, echoFields_ctrlWord]

/-- `LEN` has room for every legal count (30_encoding.md R113). -/
theorem Txn.Made.toNat_len {par : Params} {t : Txn} (h : t.Made par) : (BitVec.ofNat 7 (t.n - 1)).toNat = t.n - 1 := by
  have hmax : t.n ≤ 128 := h.count.2
  rw [BitVec.toNat_ofNat]
  omega

/-- A header is not the no-reply word of all ones, since its `DNC` is 0. -/
theorem Txn.Made.hdr_ne_ones {par : Params} {t : Txn} (h : t.Made par) : t.hdr ≠ 0xFFFFFFFF#32 := by
  intro hones
  have hdnc : t.hdr.extractLsb' 31 1 = 0#1 := congrArg Echo.dnc h.echoFields_hdr
  rw [hones] at hdnc
  exact absurd hdnc (by decide)

/-! ### The class of an echo (42_control_transactions.md R227) -/

theorem echoDiffers_eq_false {t : Txn} {w : Word32} :
    echoDiffers t w = false ↔
      w.extractLsb' 31 1 = 0#1 ∧ w.extractLsb' 29 1 = t.hdr.extractLsb' 29 1 ∧
        w.extractLsb' 28 1 = t.hdr.extractLsb' 28 1 ∧ w.extractLsb' 24 4 = t.mms ∧ w.extractLsb' 8 16 = t.addr ∧
        (w.extractLsb' 1 7).toNat = t.n - 1 := by
  simp [echoDiffers, and_assoc]

/-- The fields of a consistent echo without the header-bad flag are those of the transaction only if it is the header. -/
theorem Txn.Made.echoDiffers_eq_false_iff {par : Params} {t : Txn} (h : t.Made par) {w : Word32}
    (hp : parityOk par.paritySense w = true) (hb : w.extractLsb' 30 1 = 0#1) : echoDiffers t w = false ↔ w = t.hdr := by
  have hf := h.echoFields_hdr
  have hlen := h.toNat_len
  rw [echoDiffers_eq_false]
  constructor
  · rintro ⟨hdnc, hwnr, haid, hmms, haddr, hn⟩
    refine eq_of_echoFields hp h.parityOk_hdr ?_
    have hlen7 : w.extractLsb' 1 7 = BitVec.ofNat 7 (t.n - 1) := BitVec.eq_of_toNat_eq (hn.trans hlen.symm)
    have hwnr' : w.extractLsb' 29 1 = t.op.wnr := hwnr.trans (congrArg Echo.wnr hf)
    have haid' : w.extractLsb' 28 1 = t.aid := haid.trans (congrArg Echo.aid hf)
    rw [hf, echoFields, hdnc, hb, hwnr', haid', hmms, haddr, hlen7]
  · rintro rfl
    have hlen7 : t.hdr.extractLsb' 1 7 = BitVec.ofNat 7 (t.n - 1) := congrArg Echo.len hf
    exact ⟨congrArg Echo.dnc hf, rfl, rfl, congrArg Echo.mms hf, congrArg Echo.addr hf, by rw [hlen7, hlen]⟩

section
variable {sense : ParitySense} {t : Txn} {w : Word32}

theorem classify_of_noReply (h : w = 0#32 ∨ w = 0xFFFFFFFF#32) : classify sense t w = .noReply := if_pos h

theorem classify_of_reply (h0 : w ≠ 0#32) (h1 : w ≠ 0xFFFFFFFF#32) :
    classify sense t w =
      if parityOk sense w = false then .parity
      else if w.extractLsb' 30 1 = 1#1 then .parity
      else if echoDiffers t w then .mismatch
      else .matching := if_neg (not_or.mpr ⟨h0, h1⟩)

theorem classify_of_parity (h0 : w ≠ 0#32) (h1 : w ≠ 0xFFFFFFFF#32)
    (h : parityOk sense w = false ∨ w.extractLsb' 30 1 = 1#1) : classify sense t w = .parity := by
  rw [classify_of_reply h0 h1]
  rcases h with hp | hb
  · exact if_pos hp
  · rw [if_pos hb, ite_self]

theorem classify_of_consistent (h0 : w ≠ 0#32) (h1 : w ≠ 0xFFFFFFFF#32) (hp : parityOk sense w = true)
    (hb : w.extractLsb' 30 1 = 0#1) : classify sense t w = if echoDiffers t w then .mismatch else .matching := by
  rw [classify_of_reply h0 h1, if_neg (by simp [hp]), if_neg (by simp [hb])]

end

/-! ### What a reply leaves (42_control_transactions.md R224, R228 to R231) -/

section
variable {s : State} {a : Txn} {w : Word32}

theorem ctrlReply_of_matching (h : classify s.par.paritySense a w = .matching) :
    ctrlReply w a s = s.answerSlot a .ok (if a.op = .rd then readData a.n s.xin else []) := by
  rw [ctrlReply, h]
  exact slotNext_eq _

theorem ctrlReply_of_mismatch (h : classify s.par.paritySense a w = .mismatch) :
    ctrlReply w a s = s.answerSlot a .replyMismatch [] := by
  rw [ctrlReply, h]
  exact slotNext_eq _

theorem ctrlReply_of_parity (h : classify s.par.paritySense a w = .parity) :
    ctrlReply w a s =
      if s.par.parityRetryMax < a.pfail + 1 then s.answerSlot a .parityError []
      else { s with slot := some { a with pfail := a.pfail + 1 } } := by
  rw [ctrlReply, h]
  change ctrlParity a s = _
  rw [ctrlParity, slotNext_eq]
  rfl

theorem ctrlReply_of_noReply (h : classify s.par.paritySense a w = .noReply) :
    ctrlReply w a s =
      if s.par.ctrlTimeoutIters ≤ a.nrep + 1 then { s.answerSlot a .deviceUnreachable [] with stUnreach := true }
      else { s with slot := some { a with nrep := a.nrep + 1 } } := by
  rw [ctrlReply, h]
  change ctrlNoReply a s = _
  rw [ctrlNoReply, slotNext_eq]
  rfl

end

section
variable {s : State} {a : Txn} {i : Instr} {w : Word32} (hp : i.port = .ctrlIn) (hw : wireWord i = w)
  (hf : s.fatalCause = .none) (hs : s.slot = some a) (ha : s.EchoArrives w)
include hp hw hf hs ha

/-- An echo that arrives in an engine without a fatal cause: the reply of its class, then the end of the exchange
(44_transfer_scheduler.md R318, R320). -/
theorem exec_echo_arrives : exec i s = .next (ctrlReply w a s.received).ended := by
  have hfatal : (ctrlReply w a s.received).fatalCause = .none := by
    obtain ⟨_, _, _, _, h⟩ := ctrlReply_writes w a s.received
    rw [h]
    exact hf
  rw [exec_ctrlIn hp, hw, ← finishExchange_eq hfatal]
  exact completeCtrl_next.mpr ⟨ha, a, hs, rfl⟩

theorem exec_echo_of_matching (hc : classify s.par.paritySense a w = .matching) :
    exec i s = .next (s.received.answerSlot a .ok (if a.op = .rd then readData a.n s.xin else [])).ended := by
  rw [exec_echo_arrives hp hw hf hs ha, ctrlReply_of_matching (s := s.received) hc]
  rfl

theorem exec_echo_of_mismatch (hc : classify s.par.paritySense a w = .mismatch) :
    exec i s = .next (s.received.answerSlot a .replyMismatch []).ended := by
  rw [exec_echo_arrives hp hw hf hs ha, ctrlReply_of_mismatch (s := s.received) hc]

theorem exec_echo_of_parity (hc : classify s.par.paritySense a w = .parity) :
    exec i s =
      if s.par.parityRetryMax < a.pfail + 1 then .next (s.received.answerSlot a .parityError []).ended
      else .next (State.ended { s.received with slot := some { a with pfail := a.pfail + 1 } }) := by
  rw [exec_echo_arrives hp hw hf hs ha, ctrlReply_of_parity (s := s.received) hc, apply_ite State.ended,
    apply_ite Host.Outcome.next]
  rfl

theorem exec_echo_of_noReply (hc : classify s.par.paritySense a w = .noReply) :
    exec i s =
      if s.par.ctrlTimeoutIters ≤ a.nrep + 1 then
        .next (State.ended { s.received.answerSlot a .deviceUnreachable [] with stUnreach := true })
      else .next (State.ended { s.received with slot := some { a with nrep := a.nrep + 1 } }) := by
  rw [exec_echo_arrives hp hw hf hs ha, ctrlReply_of_noReply (s := s.received) hc, apply_ite State.ended,
    apply_ite Host.Outcome.next]
  rfl

end

/-! ### The control header (42_control_transactions.md R225, 44_transfer_scheduler.md R315, R316) -/

/-- The idle scheduler's next header is that of the slot's transaction. -/
theorem scheduled_ctrl {s : State} {t : Txn} (hp : s.phase = .idle) (hs : s.slot = some t) :
    scheduled .ctrl t.hdr s = true := by
  have hsel : select s = .ctrl := by simp [select, hs]
  have hcan : canIssue s = true := by simp [canIssue, hasWork, hp, hs]
  refine scheduled_iff.mpr ⟨hsel, ?_⟩
  rw [scheduledHeader, if_pos hcan, hsel, hs]
  rfl

theorem issueCtrl_of_slot {s : State} {t : Txn} (hp : s.phase = .idle) (hs : s.slot = some t) :
    issueCtrl t.hdr s = .next (startExchange .ctrl (ctrlOut t) 0 s) :=
  issueCtrl_next.mpr ⟨t, hs, scheduled_ctrl hp hs, rfl⟩

/-! ### REG commands (42_control_transactions.md R220 to R223, 45_lifecycle_status.md R360) -/

/-- The phase rejects REG_READ, REG_WRITE and TX_ENQUEUE with this code (45_lifecycle_status.md R360). -/
def State.RejectsWith (s : State) (code : BitVec 8) : Prop :=
  (s.phase = .uninit ∧ code = 0x09#8) ∨ ((s.phase = .draining ∨ s.phase = .stopped) ∧ code = 0x05#8) ∨
    (s.phase = .failed ∧ s.fatalCause = .linkStalled ∧ code = 0x04#8) ∨
    (s.phase = .failed ∧ s.fatalCause = .transportFault ∧ code = 0x03#8)

theorem State.RejectsWith.phaseReject_eq {s : State} {code : BitVec 8} (h : s.RejectsWith code) :
    ∃ st : Status, phaseReject s = some st ∧ st.code = code := by
  rcases h with ⟨hp, rfl⟩ | ⟨hp | hp, rfl⟩ | ⟨hp, hc, rfl⟩ | ⟨hp, hc, rfl⟩
  · exact ⟨.notInitialized, by rw [phaseReject, hp], rfl⟩
  · exact ⟨.shutdown, by rw [phaseReject, hp], rfl⟩
  · exact ⟨.shutdown, by rw [phaseReject, hp], rfl⟩
  · exact ⟨.linkStalled, by rw [phaseReject, hp, hc]; rfl, rfl⟩
  · exact ⟨.deviceUnreachable, by rw [phaseReject, hp, hc]; rfl, rfl⟩

/-- A command waits at the port only in a phase that accepts it. -/
theorem State.RejectsWith.not_mustHold {s : State} {code : BitVec 8} (h : s.RejectsWith code) (d : List Word32) :
    ¬s.MustHold d := by
  rintro ⟨_, -, -, -, hp, -⟩
  rcases h with ⟨h, -⟩ | ⟨h | h, -⟩ | ⟨h, -⟩ | ⟨h, -⟩ <;> simp [h] at hp

theorem phaseReject_of_running {s : State} (h : s.phase = .idle ∨ s.phase = .exchanging) : phaseReject s = none := by
  rcases h with h | h <;> rw [phaseReject, h]

theorem regCommand_of_accepted {t : Txn} {s : State} (d : List Word32) (hn : countOk t.n = true)
    (hp : s.phase = .idle ∨ s.phase = .exchanging) : regCommand t d s = submitCtrl t d s := by
  rw [regCommand, if_neg (by simp [hn]), phaseReject_of_running hp]

theorem regCommand_of_rejected {t : Txn} {s : State} {code : Status} (d : List Word32) (hn : countOk t.n = true)
    (hr : phaseReject s = some code) : regCommand t d s = s.answer t.op.opc code [] := by
  rw [regCommand, if_neg (by simp [hn]), hr]

theorem countOk_eq_true {n : Nat} (h1 : 1 ≤ n) (h2 : n ≤ Config.maxRegs) : countOk n = true := by
  simp [countOk, h1, h2]

/-- The instruction is a REG command with this opcode (30_encoding.md R151). -/
def IsRegWithOpcode (i : Instr) (opc : BitVec 8) : Prop :=
  (opc = 0x10#8 ∧ ∃ aid mms addr count, i = .regRead aid mms addr count) ∨
    (opc = 0x11#8 ∧ ∃ aid mms addr vals, i = .regWrite aid mms addr vals)

/-- A REG command with valid operands in a phase that rejects it: well-formedness is the check of its count. -/
theorem exec_reg_of_rejected {i : Instr} {opc : BitVec 8} {s : State} {code : Status} (hi : IsRegWithOpcode i opc)
    (hw : i.WellFormed) (hr : phaseReject s = some code) : exec i s = .next (s.answer opc code []) := by
  rcases hi with ⟨rfl, aid, mms, addr, count, rfl⟩ | ⟨rfl, aid, mms, addr, vals, rfl⟩
  · exact congrArg _ (regCommand_of_rejected _ (by exact hw) hr)
  · exact congrArg _ (regCommand_of_rejected _ (by exact hw) hr)

/-- Only an `OK` response has data words (30_encoding.md R155). -/
theorem respondInd_without_data (c : Caller) (opc : BitVec 8) (code : Status) :
    respondInd c opc code [] = .resp c [opc ++ 0#16 ++ code.code] := by
  rw [respondInd, responseWords, ite_self]

/-! ### Held commands (42_control_transactions.md R223, 20_memory.md R93) -/

/-- A command of a caller of which the port holds one waits behind it. -/
theorem fetchEvent_cmd_waits {s : State} {c : Caller} (h : ∃ x ∈ s.held, x.caller = c) (d : List Word32) :
    fetchEvent (.cmd c d) s = .done { s with held := s.held ++ [⟨c, d⟩] } := by
  have hany : s.held.any (fun x => x.caller == c) = true := by simpa using h
  rw [fetchEvent, if_pos hany]

section
variable {s : State} {c : Caller} {d : List Word32} {others : List Submission} (hh : s.held = ⟨c, d⟩ :: others)
  (hm : ¬s.MustHold d)
include hh hm

theorem step_of_held_ok {i : Instr} (hd : decode .command d = .ok i) :
    step s = exec i { s with held := others, portCaller := c } := by
  rw [step_of_held hh hm, fetchCmd_ok hd]
  rfl

theorem step_of_held_error {e : DecodeError} (hd : decode .command d = .error e) :
    step s = .next (State.respond { s with held := others } c (responseOpcode d) .invalid []) := by
  rw [step_of_held hh hm, fetchCmd, hd]
  rfl

end

/-! ### The bound on a transaction's exchanges (42_control_transactions.md R230 to R232) -/

/-- What a reply to the transaction `a` leaves of the slot and of the queue `q` behind it. -/
inductive ReplyCase (par : Params) (q : List Txn) (a : Txn) (t : State) : Prop
  /-- it is answered, and the next one moves up -/
  | answered (hslot : t.slot = q.head?) (hqueue : t.ctrlq = q.tail)
  /-- a parity failure is counted -/
  | parityCounted (hbound : a.pfail + 1 ≤ par.parityRetryMax) (hslot : t.slot = some { a with pfail := a.pfail + 1 })
      (hqueue : t.ctrlq = q)
  /-- an exchange without a reply is counted -/
  | noReplyCounted (hbound : a.nrep + 1 < par.ctrlTimeoutIters) (hslot : t.slot = some { a with nrep := a.nrep + 1 })
      (hqueue : t.ctrlq = q)

theorem ctrlReply_case (w : Word32) (a : Txn) (s : State) : ReplyCase s.par s.ctrlq a (ctrlReply w a s) := by
  cases hc : classify s.par.paritySense a w with
  | matching => rw [ctrlReply_of_matching hc]; exact .answered rfl rfl
  | mismatch => rw [ctrlReply_of_mismatch hc]; exact .answered rfl rfl
  | parity =>
    rw [ctrlReply_of_parity hc]
    split_ifs with hlimit
    · exact .answered rfl rfl
    · exact .parityCounted (Nat.not_lt.mp hlimit) rfl rfl
  | noReply =>
    rw [ctrlReply_of_noReply hc]
    split_ifs with hlimit
    · exact .answered rfl rfl
    · exact .noReplyCounted (Nat.not_le.mp hlimit) rfl rfl

/-- The end of an exchange empties the slot, or leaves it and its queue. -/
theorem finishExchange_slot (s : State) :
    (finishExchange s).slot = none ∨ ((finishExchange s).slot = s.slot ∧ (finishExchange s).ctrlq = s.ctrlq) := by
  rcases finishExchange_cases s with ⟨-, h⟩ | ⟨-, -, h⟩ | ⟨-, -, h⟩ <;> rw [h]
  · rw [finishDrain_eq]; exact .inl rfl
  · rw [enterFailed_eq]; exact .inl rfl
  · exact .inr ⟨rfl, rfl⟩

theorem xferFault_slot (s : State) : (xferFault s).slot = none := by
  unfold xferFault
  split
  · rw [finishDrain_eq]; rfl
  · rw [enterFailed_eq]; rfl

/-- What a step does to the control exchange in flight of the transaction `a`, with the queue `q` behind it. -/
inductive CtrlMove (par : Params) (q : List Txn) (a : Txn) (t : State) : Prop
  /-- it is still in flight -/
  | inFlight (hk : t.xkind = .ctrl)
  /-- it ended in a failure or a teardown, which answers every pending transaction -/
  | emptied (hslot : t.slot = none)
  /-- it ended with a reply -/
  | replied (hk : t.xkind = .none) (hr : ReplyCase par q a t)

theorem ReplyCase.of_slot {par : Params} {q : List Txn} {a : Txn} {u t : State} (h : ReplyCase par q a u)
    (hslot : t.slot = u.slot) (hqueue : t.ctrlq = u.ctrlq) : ReplyCase par q a t := by
  cases h with
  | answered hs hq => exact .answered (hslot.trans hs) (hqueue.trans hq)
  | parityCounted hb hs hq => exact .parityCounted hb (hslot.trans hs) (hqueue.trans hq)
  | noReplyCounted hb hs hq => exact .noReplyCounted hb (hslot.trans hs) (hqueue.trans hq)

theorem exec_ctrlIn_move {i : Instr} {s t : State} {a : Txn} (hp : i.port = .ctrlIn) (hs : s.slot = some a)
    (h : exec i s = .next t) : CtrlMove s.par s.ctrlq a t := by
  have hend := exec_inbound_xkind (.inl hp) h
  rw [exec_ctrlIn hp] at h
  obtain ⟨-, b, hb, rfl⟩ := completeCtrl_next.mp h
  cases hs.symm.trans hb
  rcases finishExchange_slot (ctrlReply (wireWord i) a s.received) with hnone | ⟨hslot, hqueue⟩
  · exact .emptied hnone
  · exact .replied hend ((ctrlReply_case (wireWord i) a s.received).of_slot hslot hqueue)

/-- No command touches an exchange in flight: INIT and an immediate stop need a phase without one. -/
theorem CommandCase.xkind_eq {s t : State} (h : CommandCase s t) (hp : s.phase = .exchanging ∨ s.phase = .draining) :
    t.xkind = s.xkind := by
  cases h with
  | answered u opc code data hu ht =>
    obtain ⟨_, _, _, _, _, _, _, _, _, _, rfl⟩ := hu
    subst ht
    rfl
  | initialized tscap za wcode hcold ht => rcases hp with hp | hp <;> simp [hp] at hcold
  | stopped hidle ht => rcases hp with hp | hp <;> simp [hp] at hidle
  | enqueued _ _ ht | polled _ _ _ ht | draining _ ht | slotted _ _ _ _ ht | lined _ _ _ _ ht | held _ _ _ ht =>
    subst ht
    rfl

theorem step_ctrlMove {s t : State} {a : Txn} (hi : s.Inv) (hs : step s = .next t) (hk : s.xkind = .ctrl)
    (ha : s.slot = some a) : CtrlMove s.par s.ctrlq a t := by
  have hflight : s.phase = .exchanging ∨ s.phase = .draining := hi.exchange.mp (by simp [hk])
  cases step_next_cases hs with
  | command c d s0 i ht hd he =>
    obtain ⟨inputs, held, rfl, -⟩ := ht.fewer
    exact .inFlight (((exec_command_case (decode_command_port hd) he).xkind_eq hflight).trans hk)
  | invalid c d s0 e ht hd he =>
    obtain ⟨inputs, held, rfl, -⟩ := ht.fewer
    subst he
    exact .inFlight hk
  | queued c d rest hq he =>
    subst he
    exact .inFlight hk
  | wake rest hq he =>
    subst he
    unfold wake
    split <;> exact .inFlight hk
  | idle s0 ht hw he =>
    obtain ⟨inputs, rfl, -⟩ := ht.keeps
    subst he
    exact .inFlight hk
  | issue s0 w i ht hw hd he =>
    obtain ⟨inputs, rfl, -⟩ := ht.keeps
    have hidle : s.phase = .idle := (scheduledHeader_some hw).1
    simp [hidle] at hflight
  | complete bytes rest i hq hl hd he =>
    have hport : inboundPort s = .ctrlIn := if_pos hk
    rw [hport] at hd
    exact exec_ctrlIn_move (s := { s with inputs := rest, xin := bytes }) (decode_inbound_port (.inl rfl) hd) ha he
  | fault rest hq hp he =>
    subst he
    exact .emptied (xferFault_slot _)

/-! ### The obligations -/

/-- Settles O7: `classify` makes its checks in this order, and the comparison of the fields is their conjunction. -/
theorem echoChecksInOrder : Obligations.EchoChecksInOrder := by
  intro sense t w
  refine ⟨classify_of_noReply (.inl rfl), classify_of_noReply (.inr rfl), fun h0 h1 => ⟨fun hp => ?_, fun hb => ?_, ?_⟩⟩
  · exact classify_of_parity h0 h1 (.inl hp)
  · exact classify_of_parity h0 h1 (.inr hb)
  · intro hp hb
    rw [classify_of_consistent h0 h1 hp hb]
    simp only [← echoDiffers_eq_false]
    cases echoDiffers t w <;> rfl

/-- Settles O21: the phase accepts the command and its count is legal, so it is submitted. -/
theorem regCommandIsSubmitted : Obligations.RegCommandIsSubmitted := by
  intro s i t hp hi
  obtain ⟨hexec, hcaller⟩ : exec i s = .next (submitCtrl t (encode i) s) ∧ t.caller = s.portCaller := by
    rcases hi with ⟨aid, mms, addr, count, h1, h2, rfl, rfl⟩ | ⟨aid, mms, addr, vals, h1, h2, rfl, rfl⟩
    · exact ⟨congrArg _ (regCommand_of_accepted _ (countOk_eq_true h1 h2) hp), rfl⟩
    · exact ⟨congrArg _ (regCommand_of_accepted _ (countOk_eq_true h1 h2) hp), rfl⟩
  rw [hexec, submitCtrl, hcaller]
  refine ⟨fun hs => ?slot, fun hs hq => ?queue, fun hs hq => ?held⟩
  case slot => rw [if_pos hs]
  case queue => rw [if_neg hs, if_pos hq]
  case held => rw [if_neg hs, if_neg (Nat.not_lt.mpr hq)]

/-- Settles O24: the header of either direction is that of the slot's transaction, which the idle scheduler sends. -/
theorem controlHeaderIsSent : Obligations.ControlHeaderIsSent := by
  intro s t aid mms addr len p hp hs
  have hsent := issueCtrl_of_slot hp hs
  refine ⟨fun hread => ?_, fun hwrite => ?_⟩
  · rw [hread] at hsent
    exact hsent
  · rw [hwrite] at hsent
    exact hsent

/-- Settles O25: the header of a transaction that `mk_txn` made is consistent and differs from itself in no field. -/
theorem matchingEchoAnswersOk : Obligations.MatchingEchoAnswersOk := by
  intro s t dnc hdrb wnr aid mms addr len p hf hs hmade hw ha h0
  have hb : t.hdr.extractLsb' 30 1 = 0#1 := congrArg Echo.hdrb hmade.echoFields_hdr
  have hclass : classify s.par.paritySense t t.hdr = .matching := by
    rw [classify_of_consistent h0 hmade.hdr_ne_ones hmade.parityOk_hdr hb,
      (hmade.echoDiffers_eq_false_iff hmade.parityOk_hdr hb).mpr rfl]
    rfl
  exact exec_echo_of_matching rfl hw.symm hf hs ha hclass

/-- Settles O26: a consistent echo that is not the header differs from it in a field. -/
theorem mismatchingEchoFailsAtOnce : Obligations.MismatchingEchoFailsAtOnce := by
  intro s t dnc wnr aid mms addr len p hf hs hmade ha hp h0 hne
  generalize hw : (dnc ++ 0#1 ++ wnr ++ aid ++ mms ++ addr ++ len ++ p : Word32) = w at ha hp h0 hne
  have hb : w.extractLsb' 30 1 = 0#1 := hw ▸ (ctrlWord_marks dnc 0#1 wnr aid mms addr len p).2.1
  have h1 : w ≠ 0xFFFFFFFF#32 := by
    rintro rfl
    exact absurd hb (by decide)
  have hdiff : echoDiffers t w = true := Bool.eq_true_of_not_eq_false (mt (hmade.echoDiffers_eq_false_iff hp hb).mp hne)
  have hclass : classify s.par.paritySense t w = .mismatch := by
    rw [classify_of_consistent h0 h1 hp hb, hdiff]
    rfl
  exact exec_echo_of_mismatch rfl hw hf hs ha hclass

/-- Settles O27: inconsistent parity and the header-bad flag are one class, whose reply counts up to the bound. -/
theorem parityFailureIsRetriedUpToTheBound : Obligations.ParityFailureIsRetriedUpToTheBound := by
  intro s t dnc hdrb wnr aid mms addr len p hf hs ha h0 h1 hbad
  generalize hw : (dnc ++ hdrb ++ wnr ++ aid ++ mms ++ addr ++ len ++ p : Word32) = w at ha h0 h1 hbad
  have hb : w.extractLsb' 30 1 = hdrb := hw ▸ (ctrlWord_marks dnc hdrb wnr aid mms addr len p).2.1
  exact exec_echo_of_parity rfl hw hf hs ha (classify_of_parity h0 h1 (hbad.imp_right hb.trans))

/-- Settles O28: both no-reply words are one class, whose reply counts up to the bound. -/
theorem noReplyTimesOut : Obligations.NoReplyTimesOut := by
  rintro s t i hf hs (⟨rfl, ha⟩ | ⟨rfl, ha⟩)
  · exact exec_echo_of_noReply rfl rfl hf hs ha (classify_of_noReply (.inl rfl))
  · exact exec_echo_of_noReply rfl rfl hf hs ha (classify_of_noReply (.inr rfl))

/-- Settles O23: the port tests the oldest held command before it looks at the inputs. -/
theorem heldCommandWaitsForRoom : Obligations.HeldCommandWaitsForRoom := by
  intro s c d others hh
  refine ⟨fun hm => ⟨step_of_mustHold hh hm, fun c' d' rest hi hc => ?_⟩, fun hm => ⟨fun i hd => ?_, fun e hd => ?_⟩, ?_⟩
  · rw [step_of_mustHold hh hm, fetchInput_cons hi, fetchEvent_cmd_waits (s := { s with inputs := rest }) hc]
    rfl
  · exact step_of_held_ok hh hm hd
  · exact ⟨responseOpcode d, step_of_held_error hh hm hd⟩
  · intro i opc code hd hw hi (hcode : s.RejectsWith code)
    obtain ⟨st, hrej, rfl⟩ := hcode.phaseReject_eq
    rw [step_of_held_ok hh (hcode.not_mustHold d) hd,
      exec_reg_of_rejected (s := { s with held := others, portCaller := c }) hi hw hrej, ← respondInd_without_data]
    rfl

/-- Settles O57: an exchange in flight stays with its transaction, and a reply counts one failure within its bound or moves up a
transaction that has had no exchange. -/
theorem transactionIsAnsweredWithinTheBound : Obligations.TransactionIsAnsweredWithinTheBound := by
  intro s t a b hi hs hk ha hb
  obtain ⟨hpfail, hnrep⟩ := hi.slotBounds a ha
  cases step_ctrlMove hi hs hk ha with
  | inFlight hctrl =>
    obtain ⟨hslot, -⟩ := oneControlTransactionAtATime s t hi hs hctrl
    obtain rfl : b = a := Option.some.inj (hb.symm.trans (hslot.trans ha))
    exact ⟨by omega, fun _ => rfl, by simp [hctrl], by simp [hctrl]⟩
  | emptied hslot => simp [hslot] at hb
  | replied hnone hr =>
    cases hr with
    | answered hslot hqueue =>
      obtain ⟨rest, hq⟩ := List.head?_eq_some_iff.mp (hslot.symm.trans hb)
      obtain ⟨hp0, hn0⟩ := hi.waiting b (by simp [hq])
      have hlegal := hi.legal.1
      rw [hq, List.tail_cons] at hqueue
      refine ⟨by omega, by simp [hnone], fun _ hsame => ?_, fun _ _ => ⟨by rw [hq, hqueue], hp0, hn0⟩⟩
      rw [hqueue, hq] at hsame
      exact absurd hsame List.ne_cons_self
    | parityCounted hbound hslot hqueue =>
      obtain rfl : b = { a with pfail := a.pfail + 1 } := Option.some.inj (hb.symm.trans hslot)
      exact ⟨by simp only; omega, by simp [hnone], fun _ _ => .inl rfl, fun _ hne => absurd hqueue hne⟩
    | noReplyCounted hbound hslot hqueue =>
      obtain rfl : b = { a with nrep := a.nrep + 1 } := Option.some.inj (hb.symm.trans hslot)
      exact ⟨by simp only; omega, by simp [hnone], fun _ _ => .inr rfl, fun _ hne => absurd hqueue hne⟩

end Sys2Proof.Machine

/-! PROOFS of the family 43_data_framer.md: the commands of the two frame queues, the data chunk that is sent, and what a completed
data or poll exchange does to the chunk in flight and to the receive frame. Each receive operation is one equation in the terms of
Safety.lean; a footer row is the operation that its marks select, on the slice of the payload that its offsets select. -/

namespace Sys2Proof.Machine

/-! ### The frame queues (43_data_framer.md R260, R283) -/

theorem frameLenOk_eq_true {par : Params} {n : Nat} (h1 : 1 ≤ n) (h2 : n ≤ par.txMaxFrame) : frameLenOk par n = true := by
  simp [frameLenOk, h1, h2]

theorem execTxEnqueue_of_running {frame : List Byte} {s : State} (h1 : 1 ≤ frame.length)
    (h2 : frame.length ≤ s.par.txMaxFrame) (hp : s.phase = .idle ∨ s.phase = .exchanging) :
    execTxEnqueue frame s =
      if s.txq.length = s.par.txqCap then .next (s.answer opcTxEnqueue .busy [])
      else .next ({ s with txq := s.txq ++ [frame], freshWake := true }.answer opcTxEnqueue .ok []) := by
  rw [execTxEnqueue, if_neg (by simp [frameLenOk_eq_true h1 h2]), phaseReject_of_running hp]

theorem execRxPoll_of_uninit {s : State} (hp : s.phase = .uninit) :
    execRxPoll s = .next (s.answer opcRxPoll .notInitialized []) := by
  rw [execRxPoll, if_pos hp]

theorem execRxPoll_of_nil {s : State} (hp : s.phase ≠ .uninit) (hq : s.rxq = []) :
    execRxPoll s = .next (s.answer opcRxPoll .ok [0#32]) := by
  rw [execRxPoll, if_neg hp, hq]

theorem execRxPoll_of_cons {s : State} {f : RxFrame} {rest : List RxFrame} (hp : s.phase ≠ .uninit) (hq : s.rxq = f :: rest) :
    execRxPoll s = .next ({ s with rxq := rest }.answer opcRxPoll .ok (rxPollWords f)) := by
  rw [execRxPoll, if_neg hp, hq]

theorem rxPollWords_eq (f : RxFrame) :
    rxPollWords f = (if f.ts = true then 3#32 else 1#32) :: BitVec.ofNat 32 f.bytes.length :: pack f.bytes := by
  rw [rxPollWords]
  cases f.ts <;> rfl

/-! ### The chunk that is sent (43_data_framer.md R261, R262, 44_transfer_scheduler.md R316) -/

/-- A data header with consistent parity is the one that `encode_data_header` makes of its marks (40_wire_codec.md R173). -/
theorem encodeDataHeader_eq {sense : ParitySense} {sv ev : Bit} {count : Nat} {ebo : BitVec 6} {p : Bit}
    (hebo : ebo = if ev = 1#1 then BitVec.ofNat 6 (count - 1) else 0#6)
    (hp : parityOk sense (dataWord sv ev ebo p) = true) : encodeDataHeader sense sv ev count = dataWord sv ev ebo p := by
  rw [encodeDataHeader, ← hebo]
  refine eq_of_parityOk (parityOk_withParity sense (dataWord_fields sv ev ebo 0#1).2.2.2) hp ?_
  rw [extractLsb'_withParity sense _ le_rfl, dataWord_above sv ev ebo 0#1 le_rfl, dataWord_above sv ev ebo p le_rfl]

theorem ofBool_beq (m n : Nat) : BitVec.ofBool (m == n) = if m = n then 1#1 else 0#1 := by
  by_cases h : m = n
  · rw [if_pos h, beq_iff_eq.mpr h]
    rfl
  · rw [if_neg h, beq_false_of_ne h]
    rfl

theorem chunkHeader_eq {sense : ParitySense} {width : Nat} {c : TxCur} {sv ev : Bit} {ebo : BitVec 6} {p : Bit}
    (hsv : sv = if c.cur = 0 then 1#1 else 0#1)
    (hev : ev = if c.cur + chunkLen width c = c.frame.length then 1#1 else 0#1)
    (hebo : ebo = if c.cur + chunkLen width c = c.frame.length then BitVec.ofNat 6 (chunkLen width c - 1) else 0#6)
    (hp : parityOk sense (dataWord sv ev ebo p) = true) : chunkHeader sense width c = dataWord sv ev ebo p := by
  rw [chunkHeader, ofBool_beq, ofBool_beq, ← hsv, ← hev]
  refine encodeDataHeader_eq ?_ hp
  rw [hebo, hev]
  by_cases h : c.cur + chunkLen width c = c.frame.length <;> simp [h]

/-- The frame in flight, or the head of the queue where none is (43_data_framer.md R261). -/
theorem loadTxcur_eq_some {s : State} {c : TxCur} {q : List (List Byte)}
    (h : (s.txcur = some c ∧ q = s.txq) ∨ (s.txcur = none ∧ s.txq = c.frame :: q ∧ c.cur = 0 ∧ c.hret = 0)) :
    loadTxcur s = some (c, q) := by
  obtain ⟨frame, cur, hret⟩ := c
  rcases h with ⟨hc, rfl⟩ | ⟨hc, hq, rfl, rfl⟩
  · rw [loadTxcur, hc]
  · rw [loadTxcur, hc, hq]

theorem txAvail_of_loadTxcur {s : State} {x : TxCur × List (List Byte)} (h : loadTxcur s = some x) : txAvail s = true := by
  rw [txAvail_iff]
  by_contra hn
  simp only [not_or, not_not] at hn
  rw [loadTxcur, hn.1, hn.2] at h
  cases h

/-- The idle scheduler's next header, with credit and without a control transaction, is that of the loaded chunk. -/
theorem scheduled_data {s : State} {c : TxCur} {q : List (List Byte)} (hp : s.phase = .idle) (hs : s.slot = none)
    (hcredit : s.txc ≠ 0#5) (hl : loadTxcur s = some (c, q)) :
    scheduled .data (chunkHeader s.par.paritySense s.cfgW c) s = true := by
  have havail := txAvail_of_loadTxcur hl
  have hsel : select s = .data := by simp [select, hs, havail, hcredit]
  have hcan : canIssue s = true := by simp [canIssue, hasWork, hp, havail]
  refine scheduled_iff.mpr ⟨hsel, ?_⟩
  rw [scheduledHeader, if_pos hcan, hsel, hl]
  rfl

/-! ### The chunk in flight after a footer (43_data_framer.md R263, R264) -/

theorem chunkCommitted_of_txcur {s : State} {c : TxCur} (h : s.txcur = some c) :
    s.chunkCommitted =
      { s with
        txcur := if c.cur + s.xlen = c.frame.length then none else some ⟨c.frame, c.cur + s.xlen, 0⟩
        history := s.history ++ if c.cur + s.xlen = c.frame.length then [.txDone c.frame] else [] } := by
  rw [State.chunkCommitted, h]
  by_cases hdone : c.cur + s.xlen = c.frame.length <;> simp [hdone]

theorem chunkRejected_of_txcur {s : State} {c : TxCur} (h : s.txcur = some c) :
    s.chunkRejected =
      { s with
        txcur := if s.par.parityRetryMax < c.hret + 1 then none else some ⟨c.frame, c.cur, c.hret + 1⟩
        cntTxAbort := if s.par.parityRetryMax < c.hret + 1 then s.cntTxAbort + 1#32 else s.cntTxAbort
        history := s.history ++ if s.par.parityRetryMax < c.hret + 1 then [.txAborted c.frame] else [] } := by
  rw [State.chunkRejected, h]
  by_cases habort : s.par.parityRetryMax < c.hret + 1 <;> simp [habort]

section
variable {s : State} {b : FooterBits} {c : TxCur} (hk : s.xkind = .data) (hc : s.txcur = some c)
include hk hc

theorem afterFooter_of_accepted (hb : b.hdrb = 0#1) :
    (s.afterFooter b).txcur = (if c.cur + s.xlen = c.frame.length then none else some ⟨c.frame, c.cur + s.xlen, 0⟩) ∧
      (s.afterFooter b).cntTxAbort = s.cntTxAbort ∧
      (s.afterFooter b).history = s.history ++ [.xferIn s.xin] ++
        (if c.cur + s.xlen = c.frame.length then [.txDone c.frame] else []) := by
  have hne : b.hdrb ≠ 1#1 := bit_ne_one.mpr hb
  rw [State.afterFooter, if_pos hk, if_neg hne, chunkCommitted_of_txcur (c := c)]
  · exact ⟨rfl, rfl, rfl⟩
  · exact hc

theorem afterFooter_of_headerBad (hb : b.hdrb = 1#1) :
    (s.afterFooter b).txcur = (if s.par.parityRetryMax < c.hret + 1 then none else some ⟨c.frame, c.cur, c.hret + 1⟩) ∧
      (s.afterFooter b).cntTxAbort = (if s.par.parityRetryMax < c.hret + 1 then s.cntTxAbort + 1#32 else s.cntTxAbort) ∧
      (s.afterFooter b).history = s.history ++ [.xferIn s.xin] ++
        (if s.par.parityRetryMax < c.hret + 1 then [.txAborted c.frame] else []) := by
  rw [State.afterFooter, if_pos hk, if_pos hb, chunkRejected_of_txcur (c := c)]
  · exact ⟨rfl, rfl, rfl⟩
  · exact hc

end

/-- While a frame is in flight, no stall after the footer's credit means that the polls are below the bound or credit came. -/
theorem not_stalled_of_noStall {s u : State} {txc : BitVec 5} (hn : NoStall s txc) (havail : txAvail s = true)
    (htxc : u.txc = txc) (hpolls : u.stallPolls = if txc = 0#5 then s.stallPolls else 0) (hpar : u.par = s.par) :
    ¬u.Stalled := by
  rintro ⟨-, hzero, hmax⟩
  rw [htxc] at hzero
  rw [hpolls, if_pos hzero, hpar] at hmax
  exact hn ⟨havail, hzero, hmax⟩

theorem settled_of_not_stalled {u : State} (hp : u.phase = .exchanging) (hn : ¬u.Stalled) :
    u.settled = { u.over with phase := .idle } := by
  rw [State.settled, if_neg hn, State.ended, if_neg (by simp [hp])]

/-! ### The receive side, one equation for each operation (43_data_framer.md R270 to R280) -/

theorem rxst_ne_idle {s : State} : s.rxst ≠ .idle ↔ s.rxst = .asm := by
  cases s.rxst <;> simp

theorem dropIfAsm_of_idle {s : State} (h : s.rxst = .idle) : s.dropIfAsm = s := by
  rw [State.dropIfAsm, if_neg (by simp [h])]

theorem dropIfAsm_of_asm {s : State} (h : s.rxst = .asm) : s.dropIfAsm = s.dropped := by
  rw [State.dropIfAsm, if_pos h]

@[simp] theorem dropIfAsm_par (s : State) : s.dropIfAsm.par = s.par :=
  congrArg Unprocessed.par (dropIfAsm_writes s).unprocessed_eq

@[simp] theorem dropIfAsm_tsEn (s : State) : s.dropIfAsm.tsEn = s.tsEn := (dropIfAsm_writes s).tsEn_eq

theorem ineligible_iff {s : State} {b : FooterBits} :
    ineligible s (startByte b) = true ↔ s.cfgZa = true ∧ b.swo ≠ 0#4 := by
  have hswo : startByte b ≠ 0 ↔ b.swo ≠ 0#4 := by
    rw [startByte]
    bv_omega
  simp [ineligible, hswo]

theorem rxNoData_eq (b : FooterBits) (s : State) : rxNoData b s = if b.fd = 1#1 then s.dropIfAsm else s := by
  simp only [rxNoData, bitSet, beq_iff_eq, rxDiscard_true]

theorem rxContinue_eq (b : FooterBits) (payload : List Byte) (s : State) :
    rxContinue b payload s =
      if s.rxst = .idle then s
      else if b.fd = 1#1 ∨ s.par.rxMaxFrame < s.rxbuf.length + (bytesFromTo payload 0 (s.cfgW - 1)).length then s.dropped
      else { s with rxbuf := s.rxbuf ++ bytesFromTo payload 0 (s.cfgW - 1) } := by
  simp only [rxContinue, bitSet, beq_iff_eq, rxDiscard_true]
  by_cases hr : s.rxst = .idle
  · simp [hr, dropIfAsm_of_idle hr]
  · have hasm := rxst_ne_idle.mp hr
    rw [if_neg hr, if_pos hasm, dropIfAsm_of_asm hasm, rxAppend_eq _ hasm, ← ite_or]

theorem rxEnd_eq (b : FooterBits) (payload : List Byte) (s : State) :
    rxEnd b payload s =
      if s.rxst = .idle then s
      else if b.fd = 1#1 ∨ s.par.rxMaxFrame < s.rxbuf.length + (bytesFromTo payload 0 (endByte b)).length then s.dropped
      else s.delivered (s.rxbuf ++ bytesFromTo payload 0 (endByte b)) s.rxts := by
  simp only [rxEnd, bitSet, beq_iff_eq, rxDiscard_true]
  by_cases hr : s.rxst = .idle
  · simp [hr]
  · have hasm := rxst_ne_idle.mp hr
    rw [if_neg hr, if_pos hasm, dropIfAsm_of_asm hasm, rxFinishIfAsm_rxAppend _ hasm, ← ite_or]

theorem rxBegin_eq (b : FooterBits) (payload : List Byte) (s : State) :
    rxBegin b payload s =
      if b.fd = 1#1 ∨ (s.cfgZa = true ∧ b.swo ≠ 0#4) then s.dropIfAsm
      else s.dropIfAsm.started (bytesFromTo payload (startByte b) (s.cfgW - 1)) b.rtsa := by
  simp only [rxBegin, bitSet, beq_iff_eq, ineligible_iff, rxDiscard_true, rxStart_eq]
  rw [← ite_or]

theorem rxWhole_eq (b : FooterBits) (payload : List Byte) (s : State) :
    rxWhole b payload s =
      if b.fd = 1#1 then { s.dropIfAsm with cntRxDrop := s.dropIfAsm.cntRxDrop + 1#32 }
      else if s.cfgZa = true ∧ b.swo ≠ 0#4 then s.dropIfAsm
      else if s.par.rxMaxFrame < (bytesFromTo payload (startByte b) (endByte b)).length then s.dropIfAsm.dropped
      else s.dropIfAsm.delivered (bytesFromTo payload (startByte b) (endByte b)) (s.tsEn && b.rtsa == 1#1) := by
  simp only [rxWhole, bitSet, beq_iff_eq, ineligible_iff, rxDiscard_true, rxFinishIfAsm_rxStart, dropIfAsm_par,
    dropIfAsm_tsEn]

theorem rxEndThenStart_eq (b : FooterBits) (payload : List Byte) (s : State) :
    rxEndThenStart b payload s =
      if s.cfgZa = true then rxEnd b payload s
      else (rxEnd b payload s).started (bytesFromTo payload (startByte b) (s.cfgW - 1)) b.rtsa := by
  simp only [rxEndThenStart, rxStart_eq]

/-! ### The slices of the payload (30_encoding.md R120, R121, R125) -/

/-- The bytes of the payload from an offset to its last byte. -/
theorem bytesFromTo_take_last (l : List Byte) {w : Nat} (i : Nat) (hw : 1 ≤ w) :
    bytesFromTo (l.take w) i (w - 1) = (l.take w).drop i := by
  rw [bytesFromTo, memRead, Nat.sub_add_cancel hw]
  refine List.take_of_length_le ?_
  rw [List.length_drop]
  exact Nat.sub_le_sub_right (List.length_take_le w l) i

/-- The bytes from an offset to one within the payload are those of the whole inbound string. -/
theorem bytesFromTo_take (l : List Byte) {w e : Nat} (i : Nat) (he : e < w) :
    bytesFromTo (l.take w) i e = (l.drop i).take (e + 1 - i) := by
  rw [bytesFromTo, memRead, List.drop_take, List.take_take, min_eq_left (Nat.sub_le_sub_right he i)]

/-- The inbound string of a data or poll exchange holds the payload before its footer. -/
theorem State.FooterArrives.cfgW_le {s : State} {w : Word32} (h : s.FooterArrives w) : s.cfgW ≤ s.xin.length := by
  obtain ⟨-, -, -, hfooter⟩ := h
  have hlen := congrArg List.length hfooter
  rw [memRead_length, toBE32_length] at hlen
  omega

/-- A valid footer with an end mark has its end offset within the payload (30_encoding.md R131, M3). -/
theorem ValidFooter.endByte_lt {s : State} {d v : Bit} {b : FooterBits} {p : Bit}
    (h : ValidFooter s (footerOf d v 1#1 b) p) : b.ebo.toNat < s.cfgW := by
  have hm3 : (footerOf d v 1#1 b).m3 s.cfgW = false := (Bool.or_eq_false_iff.mp h.2).2
  exact Nat.not_le.mp (of_decide_eq_false hm3)

/-- The end of the frame in progress after the footer of the inbound string in `s`, whose end offset lies within the payload
(43_data_framer.md R273). -/
theorem rxEnd_afterFooter {s : State} {b : FooterBits} {w : Word32} (ha : s.FooterArrives w) (he : b.ebo.toNat < s.cfgW) :
    rxEnd b (s.xin.take s.cfgW) (s.afterFooter b) =
      if s.rxst = .idle then s.afterFooter b
      else if b.fd = 1#1 ∨ s.par.rxMaxFrame < s.rxbuf.length + (b.ebo.toNat + 1) then (s.afterFooter b).dropped
      else (s.afterFooter b).delivered (s.rxbuf ++ s.xin.take (b.ebo.toNat + 1)) s.rxts := by
  have hw := ha.cfgW_le
  have hlen : (s.xin.take (b.ebo.toNat + 1)).length = b.ebo.toNat + 1 := List.length_take_of_le (by omega)
  rw [rxEnd_eq, endByte, bytesFromTo_take s.xin 0 he, List.drop_zero, Nat.sub_zero, hlen]
  simp only [afterFooter_rxst, afterFooter_par, afterFooter_rxbuf, afterFooter_rxts]

/-! ### The obligations -/

/-- Settles O30: the operand and the phase are accepted, so the queue's room decides. -/
theorem txEnqueueAcceptsOrIsBusy : Obligations.TxEnqueueAcceptsOrIsBusy := by
  intro s frame h1 h2 hp
  exact execTxEnqueue_of_running h1 h2 hp

/-- Settles O36: the phase, then the queue of delivered frames, decide the answer. -/
theorem rxPollTakesTheOldestFrame : Obligations.RxPollTakesTheOldestFrame := by
  intro s
  refine ⟨fun hp => ?refused, fun hp hq => ?empty, fun f rest hp hq => ?frame⟩
  case refused => exact execRxPoll_of_uninit hp
  case empty => exact execRxPoll_of_nil hp hq
  case frame =>
    rw [← rxPollWords_eq]
    exact execRxPoll_of_cons hp hq

/-- Settles O32: the scheduler's next header is that of the loaded chunk, and its marks and parity determine the word. -/
theorem dataChunkIsSent : Obligations.DataChunkIsSent := by
  rintro s c q _ sv ev ebo p hp hs hcredit hload rfl hsv hev hebo hpar
  have hl := loadTxcur_eq_some hload
  have hhdr : chunkHeader s.par.paritySense s.cfgW c = dataWord sv ev ebo p := chunkHeader_eq hsv hev hebo hpar
  have hsched := scheduled_data hp hs hcredit hl
  rw [hhdr] at hsched
  refine (execDataHdr_next.mpr ⟨c, q, hl, hsched, ?_⟩ : execDataHdr sv ev ebo p s = _)
  rw [issueData, hhdr]
  rfl

/-- Settles O34: the receive side writes nothing of the transmit side but announcements of received frames, and the stall check
finds nothing, so the end of the exchange shows what the footer left of the chunk. -/
theorem chunkIsCommittedOrRejected : Obligations.ChunkIsCommittedOrRejected := by
  intro s i f p c hrow ha hv hp hk hf hc hs hn
  obtain ⟨u, hu, he⟩ := exec_footer_outcome hrow ha
  have hkept := hu.unprocessed_eq
  have hphase : u.phase = .exchanging := (congrArg Unprocessed.phase hkept).trans hp
  have havail : txAvail s = true := txAvail_iff.mpr (.inl (by simp [hc]))
  have hstall : ¬u.Stalled := not_stalled_of_noStall hn havail (congrArg Tracker.txc (hu.tracker_of_valid hv))
    (hu.stallPolls_of_valid hv) (congrArg Unprocessed.par hkept)
  rw [finishExchange_stallCheck ((congrArg Unprocessed.fatalCause hkept).trans hf), settled_of_not_stalled hphase hstall] at he
  cases hu.eq_of_held hv hs
  obtain ⟨rxst, rxbuf, rxts, drop, ovf, frames, hrx⟩ := rxChunk_writes f (s.xin.take s.cfgW) (s.afterFooter (f.bits p))
  rw [hrx] at he
  refine ⟨_, frames.map fun r => .rxFrame r.bytes r.ts, he, rfl,
    congrArg Unprocessed.txq (afterFooter_unprocessed s (f.bits p)), fun hb => ?accepted, fun hb => ?rejected, ?announced⟩
  case accepted =>
    obtain ⟨hcur, habort, hhist⟩ := afterFooter_of_accepted (b := f.bits p) hk hc hb
    exact ⟨hcur, habort, congrArg (· ++ _) hhist⟩
  case rejected =>
    obtain ⟨hcur, habort, hhist⟩ := afterFooter_of_headerBad (b := f.bits p) hk hc hb
    exact ⟨hcur, habort, congrArg (· ++ _) hhist⟩
  case announced =>
    intro e hmem
    obtain ⟨r, -, rfl⟩ := List.mem_map.mp hmem
    exact ⟨r.bytes, r.ts, rfl⟩

/-- Settles O39: the outcome of an invalid footer, then the stall check and the end. -/
theorem invalidFooterCommitsTheChunk : Obligations.InvalidFooterCommitsTheChunk := by
  intro s i f p hrow ha hv hf
  obtain ⟨u, hu, he⟩ := exec_footer_outcome hrow ha
  have hfatal : u.fatalCause = .none := (congrArg Unprocessed.fatalCause hu.unprocessed_eq).trans hf
  rw [he, finishExchange_stallCheck hfatal, hu.eq_of_invalid hv]

/-- Settles O41: the row without receive data. -/
theorem footerWithoutData : Obligations.FooterWithoutData := by
  intro s b ha hv hs
  rw [exec_footer_held rfl ha hv hs, rxChunk_noData, rxNoData_eq, apply_ite State.settled, apply_ite Host.Outcome.next]

/-- Settles O42: the continuation takes the whole payload. -/
theorem continuationExtendsTheFrame : Obligations.ContinuationExtendsTheFrame := by
  intro s b ha hv hs hw
  have hlen : (s.xin.take s.cfgW).length = s.cfgW := List.length_take_of_le ha.cfgW_le
  have hbytes : bytesFromTo (s.xin.take s.cfgW) 0 ((s.afterFooter b).cfgW - 1) = s.xin.take s.cfgW := by
    rw [afterFooter_cfgW, bytesFromTo_take_last _ 0 hw, List.drop_zero]
  rw [exec_footer_held rfl ha hv hs, rxChunk_continue, rxContinue_eq, hbytes, hlen]
  simp only [afterFooter_rxst, afterFooter_par, afterFooter_rxbuf]

/-- Settles O43: the start takes the payload from its start byte on. -/
theorem startOfFrameBeginsAFrame : Obligations.StartOfFrameBeginsAFrame := by
  intro s b ha hv hs hw
  rw [exec_footer_held rfl ha hv hs, rxChunk_begin, rxBegin_eq, afterFooter_cfgW, afterFooter_cfgZa,
    bytesFromTo_take_last _ _ hw, startByte]

/-- Settles O44: the end takes the payload up to its end byte, which M3 keeps within it. -/
theorem endOfFrameDeliversTheFrame : Obligations.EndOfFrameDeliversTheFrame := by
  intro s b ha hv hs
  rw [exec_footer_held rfl ha hv hs, rxChunk_end, rxEnd_afterFooter ha hv.endByte_lt]

/-- Settles O45: the order of the two offsets selects the whole frame, or the end and then the start. -/
theorem startAndEndInOneChunk : Obligations.StartAndEndInOneChunk := by
  intro s b ha hv hs
  have hend := hv.endByte_lt
  have hpayload := ha.cfgW_le
  rw [exec_footer_held rfl ha hv hs, rxChunk_beginAndEnd]
  refine ⟨fun hle => ?whole, fun hlt => ⟨_, rfl, ?endThenStart⟩⟩
  case whole =>
    have hlen : ((s.xin.drop (4 * b.swo.toNat)).take (b.ebo.toNat + 1 - 4 * b.swo.toNat)).length =
        b.ebo.toNat + 1 - 4 * b.swo.toNat := List.length_take_of_le (by rw [List.length_drop]; omega)
    rw [if_pos (show startByte b ≤ endByte b from hle), rxWhole_eq, endByte, startByte, bytesFromTo_take _ _ hend, hlen]
    simp only [afterFooter_cfgZa, afterFooter_par, afterFooter_tsEn]
  case endThenStart =>
    rw [if_neg (show ¬startByte b ≤ endByte b from Nat.not_le.mpr hlt), rxEndThenStart_eq, afterFooter_cfgZa,
      afterFooter_cfgW, rxEnd_afterFooter ha hend, startByte, bytesFromTo_take_last _ _ (Nat.one_le_of_lt hend)]

end Sys2Proof.Machine

/-! PROOFS of the family 44_transfer_scheduler.md: what the scheduler selects, the steps that are not enabled, the wake pulse and
the transport fault, the end of a drain, and the phase transitions. An inbound word that completes ends its exchange from a state
that is still in the phase, with the wake latches and the SHUTDOWN caller, that the word met; the end of the exchange does the
rest. -/

namespace Sys2Proof.Machine

/-! ### Work and selection (44_transfer_scheduler.md R313 to R315) -/

theorem select_of_slot {s : State} (h : s.slot ≠ none) : select s = .ctrl :=
  if_pos (Option.isSome_iff_ne_none.mpr h)

theorem select_of_no_slot {s : State} (h : s.slot = none) :
    select s = if txAvail s = true ∧ s.txc ≠ 0#5 then .data else .poll :=
  if_neg (by simp [h])

/-- `has_work(s)` as the spec lists it. -/
theorem hasWork_iff {s : State} :
    hasWork s = true ↔
      s.slot ≠ none ∨ txAvail s = true ∨ s.irqPending = true ∨ s.rca ≠ 0#5 ∨ (s.freshWake = true ∧ s.txc = 0#5) := by
  simp [hasWork, Option.isSome_iff_ne_none, or_assoc]

/-- There is credit, or receive chunks wait, when the field is not zero. -/
theorem one_le_toNat_iff {c : BitVec 5} : 1 ≤ c.toNat ↔ c ≠ 0#5 := by
  bv_omega

/-! ### The credit poll (44_transfer_scheduler.md R316, 30_encoding.md R126) -/

/-- The parity bit of the poll header under each sense: one bit above it is set. -/
theorem pollHeader_eq (sense : ParitySense) : pollHeader sense = pollWord (if sense = .odd then 0#1 else 1#1) := by
  cases sense <;> rfl

theorem toBE32_pollWord (p : Bit) : toBE32 (pollWord p) = [0x80#8, 0x00#8, 0x00#8, 0#7 ++ p] := by
  revert p
  decide

/-- The idle scheduler's next header, with work but no control transaction, and without credit or transmit data, is that of a
poll. -/
theorem scheduled_poll {s : State} (hp : s.phase = .idle) (hs : s.slot = none) (hw : hasWork s = true)
    (hcredit : txAvail s = true → s.txc = 0#5) : scheduled .poll (pollHeader s.par.paritySense) s = true := by
  have hsel : select s = .poll := by
    rw [select_of_no_slot hs, if_neg (fun h => h.2 (hcredit h.1))]
  have hcan : canIssue s = true := by simp [canIssue, hp, hw]
  refine scheduled_iff.mpr ⟨hsel, ?_⟩
  rw [scheduledHeader, if_pos hcan, hsel]

/-! ### Steps that are not enabled (44_transfer_scheduler.md R310, R317, R318, R321) -/

theorem inFlight_iff {s : State} : inFlight s = true ↔ s.phase = .exchanging ∨ s.phase = .draining := by
  simp [inFlight]

theorem inFlight_eq_false {s : State} (h1 : s.phase ≠ .exchanging) (h2 : s.phase ≠ .draining) : inFlight s = false := by
  simp [inFlight, h1, h2]

/-- Only an idle engine sends a header. -/
theorem scheduled_of_not_idle {s : State} (hp : s.phase ≠ .idle) (k : XKind) (w : Word32) : ¬scheduled k w s = true := by
  intro h
  exact hp (scheduledHeader_some (scheduled_iff.mp h).2).1

theorem issueCtrl_of_not_idle {s : State} (hp : s.phase ≠ .idle) (w : Word32) : issueCtrl w s = .fault .notScheduled := by
  rw [issueCtrl]
  cases s.slot with
  | none => rfl
  | some a => exact if_neg (scheduled_of_not_idle hp .ctrl w)

theorem exec_outbound_of_not_idle {i : Instr} {s : State} (hi : i.port = .outbound) (hp : s.phase ≠ .idle) :
    exec i s = .fault .notScheduled := by
  cases i <;> try cases hi
  case ctrlHdrRd | ctrlHdrWr => exact issueCtrl_of_not_idle hp _
  case dataPoll p => exact if_neg (scheduled_of_not_idle hp .poll (pollWord p))
  case dataHdr sv ev ebo p =>
    change execDataHdr sv ev ebo p s = _
    rw [execDataHdr]
    cases loadTxcur s with
    | none => rfl
    | some q => exact if_neg (scheduled_of_not_idle hp .data (dataWord sv ev ebo p))

section
variable {s : State} (h1 : s.phase ≠ .exchanging) (h2 : s.phase ≠ .draining)
include h1 h2

theorem inboundGuard_of_not_inFlight (kindOk : Bool) (off : Nat) (w : Word32) :
    inboundGuard kindOk off w s = some .noExchange := if_pos (.inl (inFlight_eq_false h1 h2))

theorem exec_inbound_of_not_inFlight {i : Instr} (hi : i.port = .ctrlIn ∨ i.port = .dataIn) :
    exec i s = .fault .noExchange := by
  rcases hi with hi | hi
  · rw [exec_ctrlIn hi, completeCtrl, inboundGuard_of_not_inFlight h1 h2]
  · obtain ⟨f, p, hf⟩ := footerRow_of_port hi
    rw [exec_footerRow hf, completeData, inboundGuard_of_not_inFlight h1 h2]

/-- A transport step needs an exchange in flight. -/
theorem fetchEvent_of_not_inFlight (bytes : List Byte) :
    fetchEvent .fault s = .stop .noExchange ∧ fetchEvent (.complete bytes) s = .stop .noExchange := by
  have hflight : ¬inFlight s = true := by simp [inFlight_eq_false h1 h2]
  exact ⟨if_neg hflight, if_pos (inFlight_eq_false h1 h2)⟩

end

/-- An inbound string has the length of the outbound one. -/
theorem fetchInbound_of_length {s : State} {bytes : List Byte} (hp : s.phase = .exchanging ∨ s.phase = .draining)
    (hl : bytes.length ≠ s.xout.length) : fetchInbound bytes s = .stop .inboundLength := by
  rw [fetchInbound, if_neg (by simp [inFlight_iff.mpr hp]), if_pos (.inl hl)]

section
variable {s : State} (hn : s.NextIsInput)
include hn

theorem step_of_event {e : Event} {rest : List Event} (hi : s.inputs = e :: rest) :
    step s = runFetched (fetchEvent e { s with inputs := rest }) := by
  rw [step_of_nextIsInput hn, fetchInput_cons hi]

theorem step_of_no_event (hi : s.inputs = []) : step s = runFetched (fetchIssue s) := by
  rw [step_of_nextIsInput hn, fetchInput_nil hi]

end

/-! ### The transport fault (44_transfer_scheduler.md R321 to R324) -/

/-- Outside a drain the fault is the cause with which the engine fails. -/
theorem xferFault_of_exchanging {s : State} (hp : s.phase = .exchanging) (hf : s.fatalCause = .none) :
    xferFault s = (clearExchange (s.emit .xferFault)).failedWith .transportFault := by
  rw [xferFault, if_neg (by simp [hp]), hf, enterFailed_eq]
  rfl

theorem xferFault_of_draining {s : State} (hp : s.phase = .draining) :
    xferFault s = finishDrain (clearExchange (s.emit .xferFault)) := if_pos hp

/-- The end of a drain whose SHUTDOWN caller is known. -/
theorem finishDrain_of_shutCaller {s : State} {c : Caller} (hc : s.shutCaller = some c) :
    finishDrain s =
      { s.tornDown with
        phase := .stopped, shutCaller := none, history := s.tornDown.history ++ [.resp c [0x02000000#32]] } := by
  rw [finishDrain_eq, hc]
  rfl

/-! ### What a completed exchange leaves of the agents' signals

`Unprocessed` has the elements that no footer processes; these are the others that a completion leaves until the exchange
ends. -/

/-- The wake latches and the caller whose SHUTDOWN waits (10_state.md R33, R34, R58). -/
structure Signals where
  irqPending : Bool
  freshWake : Bool
  shutCaller : Option Caller

def State.signals (s : State) : Signals := ⟨s.irqPending, s.freshWake, s.shutCaller⟩

theorem RxWrites.signals_eq {s t : State} (h : RxWrites s t) : t.signals = s.signals := by
  obtain ⟨_, _, _, _, _, _, rfl⟩ := h; rfl

theorem TxWrites.signals_eq {s t : State} (h : TxWrites s t) : t.signals = s.signals := by
  obtain ⟨_, _, _, rfl, -, -⟩ := h; rfl

theorem afterFooter_signals (s : State) (b : FooterBits) : (s.afterFooter b).signals = s.signals := by
  obtain ⟨_, _, _, _, _, _, _, _, _, h⟩ := afterFooter_writes s b; rw [h]; rfl

theorem afterInvalidFooter_signals (s : State) : s.afterInvalidFooter.signals = s.signals := by
  simp only [State.afterInvalidFooter, apply_ite State.signals, (chunkCommitted_writes _).signals_eq,
    (dropIfAsm_writes _).signals_eq, ite_self]
  rfl

theorem FooterOutcome.signals_eq {s u : State} {f : Footer} {p : Bit} (h : FooterOutcome s f p u) :
    u.signals = s.signals := by
  cases h with
  | held hv hs => rw [(rxChunk_writes _ _ _).signals_eq, afterFooter_signals]
  | falls hv hseen hsync => exact (dropIfAsm_writes _).signals_eq
  | invalid hv => exact afterInvalidFooter_signals s

/-! ### Without a receive frame in progress nothing remains of one (10_state.md R44) -/

/-- `RxClean` reads the frame in progress alone. -/
theorem RxClean.congr {s t : State} (h : RxClean s) (hst : t.rxst = s.rxst) (hbuf : t.rxbuf = s.rxbuf)
    (hts : t.rxts = s.rxts) : RxClean t := by
  rwa [RxClean, hst, hbuf, hts]

theorem RxClean.of_asm {s : State} (h : s.rxst = .asm) : RxClean s := by
  intro hidle
  rw [h] at hidle
  cases hidle

theorem dropped_clean (s : State) : RxClean s.dropped := fun _ => ⟨rfl, rfl⟩

theorem dropIfAsm_clean {s : State} (h : RxClean s) : RxClean s.dropIfAsm := by
  unfold State.dropIfAsm
  split
  · exact dropped_clean s
  · exact h

theorem delivered_clean (s : State) (bytes : List Byte) (ts : Bool) : RxClean (s.delivered bytes ts) := by
  unfold State.delivered
  split <;> exact fun _ => ⟨rfl, rfl⟩

theorem started_clean (s : State) (bytes : List Byte) (rtsa : Bit) : RxClean (s.started bytes rtsa) := by
  unfold State.started
  split
  · exact dropped_clean s
  · exact .of_asm rfl

theorem chunkCommitted_clean {s : State} (h : RxClean s) : RxClean s.chunkCommitted := by
  obtain ⟨_, _, _, hw, -, -⟩ := chunkCommitted_writes s
  rw [hw]
  exact h

theorem afterFooter_clean {s : State} (b : FooterBits) (h : RxClean s) : RxClean (s.afterFooter b) :=
  h.congr (afterFooter_rxst s b) (afterFooter_rxbuf s b) (afterFooter_rxts s b)

section
variable {s : State} (b : FooterBits) (payload : List Byte) (h : RxClean s)
include h

theorem rxNoData_clean : RxClean (rxNoData b s) := by
  rw [rxNoData_eq]
  split
  · exact dropIfAsm_clean h
  · exact h

theorem rxContinue_clean : RxClean (rxContinue b payload s) := by
  rw [rxContinue_eq]
  split_ifs with hidle
  · exact h
  · exact dropped_clean s
  · exact .of_asm (rxst_ne_idle.mp hidle)

theorem rxEnd_clean : RxClean (rxEnd b payload s) := by
  rw [rxEnd_eq]
  split_ifs
  · exact h
  · exact dropped_clean s
  · exact delivered_clean s _ _

theorem rxBegin_clean : RxClean (rxBegin b payload s) := by
  rw [rxBegin_eq]
  split
  · exact dropIfAsm_clean h
  · exact started_clean _ _ _

theorem rxWhole_clean : RxClean (rxWhole b payload s) := by
  have hdrop := dropIfAsm_clean h
  rw [rxWhole_eq]
  split_ifs
  · exact hdrop
  · exact hdrop
  · exact dropped_clean _
  · exact delivered_clean _ _ _

theorem rxEndThenStart_clean : RxClean (rxEndThenStart b payload s) := by
  rw [rxEndThenStart_eq]
  split
  · exact rxEnd_clean b payload h
  · exact started_clean _ _ _

theorem rxChunk_clean (f : Footer) : RxClean (rxChunk f payload s) := by
  obtain ⟨b, hrow⟩ := rxChunk_row f
  rcases hrow payload s with hrx | hrx | hrx | hrx | hrx <;> rw [hrx]
  · exact rxNoData_clean b h
  · exact rxContinue_clean b payload h
  · exact rxEnd_clean b payload h
  · exact rxBegin_clean b payload h
  · split
    · exact rxWhole_clean b payload h
    · exact rxEndThenStart_clean b payload h

end

theorem FooterOutcome.clean {s u : State} {f : Footer} {p : Bit} (h : FooterOutcome s f p u) (hs : RxClean s) :
    RxClean u := by
  cases h with
  | held hv hsync => exact rxChunk_clean _ (afterFooter_clean _ hs) f
  | falls hv hseen hsync => exact dropIfAsm_clean hs
  | invalid hv =>
    have hdrop := dropIfAsm_clean (s := { s.received with cntFtrErr := s.cntFtrErr + 1#32, stFtrerr := true }) hs
    rw [State.afterInvalidFooter]
    split
    · exact chunkCommitted_clean hdrop
    · exact hdrop

/-- A teardown leaves no receive frame and nothing of one (44_transfer_scheduler.md R323). -/
theorem tornDown_rx {s : State} (h : RxClean s) : s.tornDown.rxbuf = [] ∧ s.tornDown.rxts = false := by
  by_cases hr : s.rxst = .asm
  · exact ⟨if_pos hr, if_pos hr⟩
  · obtain ⟨hbuf, hts⟩ := h (not_not.mp (mt rxst_ne_idle.mp hr))
    exact ⟨(if_neg hr).trans hbuf, (if_neg hr).trans hts⟩

/-! ### Every inbound word ends its exchange (44_transfer_scheduler.md R318) -/

/-- A footer that completes has one of the outcomes, then the stall check and the end of the exchange. -/
theorem exec_dataIn_outcome {i : Instr} {s t : State} (hp : i.port = .dataIn) (h : exec i s = .next t) :
    ∃ f p u, FooterOutcome s f p u ∧ t = finishExchange (stallCheck u) := by
  obtain ⟨f, p, hrow⟩ := footerRow_of_port hp
  have ha : s.FooterArrives (footerWord f p) := by
    rw [exec_footerRow hrow] at h
    exact (completeData_next.mp h).1
  obtain ⟨u, hu, he⟩ := exec_footer_outcome hrow ha
  rw [he] at h
  cases h
  exact ⟨f, p, u, hu, rfl⟩

/-- Until the exchange ends, the phase and the signals of the agents are those that the inbound word met. -/
theorem exec_inbound_end {i : Instr} {s t : State} (hp : i.port = .ctrlIn ∨ i.port = .dataIn) (h : exec i s = .next t) :
    ∃ u, t = finishExchange u ∧ u.phase = s.phase ∧ u.signals = s.signals ∧ (RxClean s → RxClean u) := by
  rcases hp with hp | hp
  · obtain ⟨_, _, _, _, ht⟩ := exec_ctrlIn_writes hp h
    exact ⟨_, ht, rfl, rfl, id⟩
  · obtain ⟨f, p, u, hu, ht⟩ := exec_dataIn_outcome hp h
    rw [stallCheck_eq] at ht
    exact ⟨_, ht, congrArg Unprocessed.phase hu.unprocessed_eq, hu.signals_eq, hu.clean⟩

theorem finishExchange_of_draining {s : State} (h : s.phase = .draining) :
    finishExchange s = finishDrain (clearExchange s) := if_pos h

/-- The header of a transaction that `mk_txn` made is its own matching echo, but for the no-reply word
(42_control_transactions.md R227). -/
theorem Txn.Made.classify_hdr {par : Params} {t : Txn} (h : t.Made par) (h0 : t.hdr ≠ 0#32) :
    classify par.paritySense t t.hdr = .matching := by
  have hb : t.hdr.extractLsb' 30 1 = 0#1 := congrArg Echo.hdrb h.echoFields_hdr
  have hsame : echoDiffers t t.hdr = false := (h.echoDiffers_eq_false_iff h.parityOk_hdr hb).mpr rfl
  rw [classify_of_consistent h0 h.hdr_ne_ones h.parityOk_hdr hb, hsame]
  rfl

/-- An echo that arrives while draining: the reply of its class, then the end of the drain, whatever cause is pending
(44_transfer_scheduler.md R318, R320, R324). -/
theorem exec_echo_of_draining {s : State} {a : Txn} {i : Instr} {w : Word32} (hport : i.port = .ctrlIn)
    (hw : wireWord i = w) (hp : s.phase = .draining) (hs : s.slot = some a) (ha : s.EchoArrives w) :
    exec i s = .next (finishDrain (clearExchange (ctrlReply w a s.received))) := by
  have hphase : (ctrlReply w a s.received).phase = .draining := by
    obtain ⟨_, _, _, _, h⟩ := ctrlReply_writes w a s.received
    rw [h]
    exact hp
  rw [exec_ctrlIn hport, hw, ← finishExchange_of_draining hphase]
  exact completeCtrl_next.mpr ⟨ha, a, hs, rfl⟩

/-- After a poll without transmit data a valid footer leaves none (44_transfer_scheduler.md R319 step 4). -/
theorem FooterOutcome.txAvail_of_poll {s u : State} {f : Footer} {p : Bit} (h : FooterOutcome s f p u)
    (hv : ValidFooter s f p) (hk : s.xkind = .poll) (hs : txAvail s = false) : txAvail u = false := by
  have htxq : u.txq = s.txq := congrArg Unprocessed.txq h.unprocessed_eq
  have hnone : s.txcur = none ∧ s.txq = [] := by simpa [txAvail] using hs
  have htxcur : u.txcur = none := by
    cases h with
    | held _ hsync =>
      rw [(rxChunk_writes _ _ _).txcur_eq, afterFooter_txcur, if_neg (by simp [hk])]
      exact hnone.1
    | falls _ hseen hsync =>
      rw [State.afterSyncFall, (dropIfAsm_writes _).txcur_eq, hnone.1]
      rfl
    | invalid hn => exact absurd hv hn
  simp [txAvail, htxcur, htxq, hnone.2]

/-! ### The phase transitions (44_transfer_scheduler.md R310) -/

theorem PhaseStep.refl (a : Phase) : PhaseStep a a := .inl rfl

theorem PhaseStep.of_same {s t : State} (h : t.phase = s.phase) : PhaseStep s.phase t.phase := .inl h.symm

/-- A step between two phases that are known. -/
theorem PhaseStep.of_phases {s t : State} {a : Phase} (b : Phase) (h : PhaseStep a b) (hs : s.phase = a)
    (ht : t.phase = b) : PhaseStep s.phase t.phase := by
  rwa [hs, ht]

theorem CommandCase.phaseStep {s t : State} (h : CommandCase s t) : PhaseStep s.phase t.phase := by
  cases h with
  | answered u opc code data hu ht =>
    obtain ⟨_, _, _, _, _, _, _, _, _, _, rfl⟩ := hu
    subst ht
    exact .refl _
  | initialized tscap za wcode hp ht =>
    subst ht
    rcases hp with hp | hp <;> exact .of_phases .idle (.inr (by decide)) hp rfl
  | stopped hp ht =>
    subst ht
    rcases hp with hp | hp <;> exact .of_phases .stopped (.inr (by decide)) hp rfl
  | draining hp ht =>
    subst ht
    exact .of_phases .draining (.inr (by decide)) hp rfl
  | enqueued _ _ ht | polled _ _ _ ht | slotted _ _ _ _ ht | lined _ _ _ _ ht | held _ _ _ ht =>
    subst ht
    exact .refl _

/-- An outbound word is sent by an idle engine and puts its exchange in flight. -/
theorem exec_outbound_phase {i : Instr} {s t : State} (hp : i.port = .outbound) (h : exec i s = .next t) :
    s.phase = .idle ∧ t.phase = .exchanging := by
  have hidle : s.phase = .idle := by
    by_contra hn
    rw [exec_outbound_of_not_idle hp hn] at h
    cases h
  cases i <;> try cases hp
  case ctrlHdrRd | ctrlHdrWr =>
    obtain ⟨a, -, -, rfl⟩ := issueCtrl_next.mp h
    exact ⟨hidle, rfl⟩
  case dataPoll =>
    obtain ⟨-, rfl⟩ := execDataPoll_next.mp h
    exact ⟨hidle, rfl⟩
  case dataHdr =>
    obtain ⟨c, q, -, -, rfl⟩ := execDataHdr_next.mp h
    exact ⟨hidle, rfl⟩

theorem finishDrain_phase (s : State) : (finishDrain s).phase = .stopped := by
  rw [finishDrain_eq]

theorem enterFailed_phase (s : State) : (enterFailed s).phase = .failed := by
  rw [enterFailed_eq]
  rfl

/-- The end of an exchange: `STOPPED` after a drain, else `FAILED` or `IDLE`. -/
theorem finishExchange_phaseStep {s : State} (hp : s.phase = .exchanging ∨ s.phase = .draining) :
    PhaseStep s.phase (finishExchange s).phase := by
  rcases finishExchange_cases s with ⟨hd, h⟩ | ⟨hd, -, h⟩ | ⟨hd, -, h⟩ <;> rw [h]
  · exact .of_phases .stopped (.inr (by decide)) hd (finishDrain_phase _)
  · exact .of_phases .failed (.inr (by decide)) (hp.resolve_right hd) (enterFailed_phase _)
  · exact .of_phases .idle (.inr (by decide)) (hp.resolve_right hd) rfl

theorem exec_inbound_phaseStep {i : Instr} {s t : State} (hp : i.port = .ctrlIn ∨ i.port = .dataIn)
    (h : exec i s = .next t) : PhaseStep s.phase t.phase := by
  obtain ⟨u, rfl, hphase, -, -⟩ := exec_inbound_end hp h
  rw [← hphase]
  exact finishExchange_phaseStep (hphase ▸ exec_inbound_phase hp h)

theorem xferFault_phaseStep {s : State} (hp : s.phase = .exchanging ∨ s.phase = .draining) :
    PhaseStep s.phase (xferFault s).phase := by
  unfold xferFault
  split
  case isTrue hd => exact .of_phases .stopped (.inr (by decide)) hd (finishDrain_phase _)
  case isFalse hd => exact .of_phases .failed (.inr (by decide)) (hp.resolve_right hd) (enterFailed_phase _)

theorem wake_phase (s : State) : (wake s).phase = s.phase := by
  unfold wake
  split <;> rfl

/-! ### The obligations -/

/-- Settles O47: the inbound word leaves the phase, the SHUTDOWN caller and a clean receive side to the end of the exchange, which
is that of a drain. -/
theorem drainEndsStopped : Obligations.DrainEndsStopped := by
  intro s t i c hport hp hc hclean h
  obtain ⟨u, rfl, hphase, hsig, hu⟩ := exec_inbound_end hport h
  have hcaller : u.shutCaller = some c := (congrArg Signals.shutCaller hsig).trans hc
  obtain ⟨hbuf, hts⟩ := tornDown_rx (s := clearExchange u) (hu hclean)
  rw [finishExchange_of_draining (hphase.trans hp), finishDrain_of_shutCaller (s := clearExchange u) hcaller]
  exact ⟨rfl, rfl, rfl, rfl, rfl, rfl, rfl, hbuf, hts, rfl, rfl, rfl, rfl, rfl, rfl, List.getLast?_concat⟩

/-- Settles O48: the echo of the slot's own header is in the class MATCH, its reply answers the slot, and the end of the exchange
is that of a drain. -/
theorem matchingEchoIsAnsweredBeforeTheTeardown : Obligations.MatchingEchoIsAnsweredBeforeTheTeardown := by
  intro s t c dnc hdrb wnr aid mms addr len p hp hc hs hmade hw ha h0
  have hreply := ctrlReply_of_matching (s := s.received) (hmade.classify_hdr h0)
  have hend : exec (.ctrlEcho dnc hdrb wnr aid mms addr len p) s = _ := exec_echo_of_draining rfl hw.symm hp hs ha
  refine ⟨_, rfl, ?_⟩
  rw [hend, hreply, finishDrain_of_shutCaller (c := c)]
  · rfl
  · exact hc

/-- Settles O49: a valid footer leaves the latches, the slot and the queues as they were, so neither a stall nor work is left. -/
theorem idleAfterOnePoll : Obligations.IdleAfterOnePoll := by
  intro s i f p hrow ha hv hp hk hf hs havail hirq hfresh hrca
  obtain ⟨u, hu, he⟩ := exec_footer_outcome hrow ha
  have hkept := hu.unprocessed_eq
  have hsig := hu.signals_eq
  have hu_phase : u.phase = .exchanging := (congrArg Unprocessed.phase hkept).trans hp
  have hu_fatal : u.fatalCause = .none := (congrArg Unprocessed.fatalCause hkept).trans hf
  have hu_slot : u.slot = none := (congrArg Unprocessed.slot hkept).trans hs
  have hu_irq : u.irqPending = false := (congrArg Signals.irqPending hsig).trans hirq
  have hu_fresh : u.freshWake = false := (congrArg Signals.freshWake hsig).trans hfresh
  have hu_rca : u.rca = 0#5 := (congrArg Tracker.rca (hu.tracker_of_valid hv)).trans hrca
  have hu_avail : txAvail u = false := hu.txAvail_of_poll hv hk havail
  have hstall : ¬u.Stalled := fun h => absurd h.1 (by simp [hu_avail])
  rw [finishExchange_stallCheck hu_fatal, settled_of_not_stalled hu_phase hstall] at he
  have hidle : hasWork u = false := by simp [hasWork, hu_slot, hu_avail, hu_irq, hu_rca, hu_fresh]
  exact ⟨_, he, rfl, hidle⟩

/-- Settles O53, by the cases of a step. -/
theorem phaseChangesOnlyAsListed : Obligations.PhaseChangesOnlyAsListed := by
  intro s t hs
  cases step_next_cases hs with
  | command c d s0 i ht hd he =>
    obtain ⟨inputs, held, rfl, -⟩ := ht.fewer
    exact (exec_command_case (decode_command_port hd) he).phaseStep
  | invalid c d s0 e ht hd he =>
    obtain ⟨inputs, held, rfl, -⟩ := ht.fewer
    subst he
    exact .refl _
  | queued c d rest hq he =>
    subst he
    exact .refl _
  | wake rest hq he =>
    subst he
    exact .of_same (wake_phase { s with inputs := rest })
  | idle s0 ht hw he =>
    obtain ⟨inputs, rfl, -⟩ := ht.keeps
    subst he
    exact .refl _
  | issue s0 w i ht hw hd he =>
    obtain ⟨inputs, rfl, -⟩ := ht.keeps
    obtain ⟨hidle, hflight⟩ := exec_outbound_phase (decode_outbound_port hd) he
    exact .of_phases .exchanging (.inr (by decide)) hidle hflight
  | complete bytes rest i hq hl hd he =>
    have hport := decode_inbound_port (inboundPort_inbound s) hd ▸ inboundPort_inbound s
    exact exec_inbound_phaseStep (s := { s with inputs := rest, xin := bytes }) hport he
  | fault rest hq hflight he =>
    subst he
    exact xferFault_phaseStep (s := { s with inputs := rest }) (inFlight_iff.mp hflight)

/-- Settles O11: the pulse is the step, and its guard is the phase. -/
theorem wakeSetsTheLatches : Obligations.WakeSetsTheLatches := by
  intro s rest hn hi
  rw [step_of_event hn hi]
  refine ⟨fun hp => ?_, fun hp => ?_⟩
  · exact congrArg Host.Outcome.next (if_pos hp)
  · refine congrArg Host.Outcome.next (if_neg ?_)
    rcases hp with hp | hp | hp <;> simp [hp]

/-- Settles O12: without a header to send the turn passes, and the guards of the other steps are the phase and the length. -/
theorem noStepWhereNoneIsEnabled : Obligations.NoStepWhereNoneIsEnabled := by
  refine ⟨fun s rest hn hw => ⟨fun hi => ?given, fun hi => ?free⟩, fun s i hi hp => exec_outbound_of_not_idle hi hp,
    fun s i hi h1 h2 => exec_inbound_of_not_inFlight h1 h2 hi, fun s bytes rest hn hi h1 h2 => ?transport,
    fun s bytes rest hn hi hp hl => ?length⟩
  case given =>
    have hnone : scheduledHeader { s with inputs := rest } = none := scheduledHeader_none_iff.mpr hw
    rw [step_of_event hn hi, fetchEvent, fetchIssue_none hnone]
    rfl
  case free =>
    rw [step_of_no_event hn hi, fetchIssue_none (scheduledHeader_none_iff.mpr hw)]
    rfl
  case transport =>
    obtain ⟨hfault, hcomplete⟩ := fetchEvent_of_not_inFlight (s := { s with inputs := rest }) h1 h2 bytes
    rcases hi with hi | hi
    · rw [step_of_event hn hi, hfault]
      rfl
    · rw [step_of_event hn hi, hcomplete]
      rfl
  case length =>
    rw [step_of_event hn hi, fetchEvent, fetchInbound_of_length (s := { s with inputs := rest }) hp hl]
    rfl

/-- Settles O13: an exchange is in flight, so the fault is the step, and the phase tells its two ends apart. -/
theorem transportFaultFailsOrEndsTheDrain : Obligations.TransportFaultFailsOrEndsTheDrain := by
  intro s rest hn hi
  have hstep : s.phase = .exchanging ∨ s.phase = .draining → step s = .next (xferFault { s with inputs := rest }) := by
    intro hp
    have hflight : inFlight { s with inputs := rest } = true := inFlight_iff.mpr hp
    rw [step_of_event hn hi, fetchEvent, if_pos hflight]
    rfl
  refine ⟨fun hp hf => ?failed, fun c hp hc => ?stopped⟩
  case failed =>
    rw [hstep (.inl hp), xferFault_of_exchanging (s := { s with inputs := rest }) hp hf]
    rfl
  case stopped =>
    rw [hstep (.inr hp), xferFault_of_draining (s := { s with inputs := rest }) hp, finishDrain_of_shutCaller (c := c)]
    · rfl
    · exact hc

/-- Settles O31: the scheduler's next header is that of a poll, and its parity bit is the one that the sense asks for. -/
theorem creditPollIsSent : Obligations.CreditPollIsSent := by
  intro s p hp hs hw hcredit hpar
  have hhdr : pollHeader s.par.paritySense = pollWord p := hpar ▸ pollHeader_eq s.par.paritySense
  have hsched := scheduled_poll hp hs hw hcredit
  rw [hhdr] at hsched
  refine (execDataPoll_next.mpr ⟨hsched, ?_⟩ : execDataPoll p s = _)
  rw [issuePoll, hhdr, toBE32_pollWord]
  rfl

/-- Settles O33, by the slot, then by transmit data with credit. -/
theorem controlFirstThenDataThenPoll : Obligations.ControlFirstThenDataThenPoll := by
  intro s
  have hrca : 0 < s.rca.toNat ↔ s.rca ≠ 0#5 := one_le_toNat_iff
  have hzero : s.txc.toNat = 0 ↔ s.txc = 0#5 := by bv_omega
  rw [hasWork_iff, ← txAvail_iff, one_le_toNat_iff, hrca, hzero]
  by_cases hs : s.slot = none
  · rw [select_of_no_slot hs]
    by_cases hdata : txAvail s = true ∧ s.txc ≠ 0#5 <;> simp [hs, hdata]
  · rw [select_of_slot hs]
    simp [hs]

end Sys2Proof.Machine

/-! PROOFS of the family 45_lifecycle_status.md: what a step runs, and the commands that are answered without an exchange. Each
command is one equation for each group of phases that its table tells apart; the status words are read field by field. -/

namespace Sys2Proof.Machine

open Sys2Proof.Laws (extract_above extract_within)

/-! ### What a step runs (45_lifecycle_status.md R361, 44_transfer_scheduler.md R316, R318) -/

/-- The word of a completion runs where the inbound string has the length of the outbound one. -/
theorem fetchInbound_some {s : State} {bytes : List Byte} {w : Word32} {i : Instr}
    (hp : s.phase = .exchanging ∨ s.phase = .draining) (hl : bytes.length = s.xout.length)
    (hw : memRead bytes (inboundOffset s) 4 = toBE32 w) (hd : decode (inboundPort s) [w] = .ok i) :
    fetchInbound bytes s = .run i { s with xin := bytes } := by
  have hlength : ¬(bytes.length ≠ s.xout.length ∨ (memRead bytes (inboundOffset s) 4).length ≠ 4) := by
    simp [hl, hw]
  rw [fetchInbound, if_neg (by simp [inFlight_iff.mpr hp]), if_neg hlength, hw, be32_toBE32, hd]

/-! ### Answers without data (30_encoding.md R155) -/

theorem answer_without_data (s : State) (opc : BitVec 8) (code : Status) :
    s.answer opc code [] = { s with history := s.history ++ [.resp s.portCaller [opc ++ 0#16 ++ code.code]] } := by
  rw [← respondInd_without_data]
  rfl

/-! ### Lifecycle (45_lifecycle_status.md R350, R351) -/

/-- The payload width as the spec lists it (30_encoding.md R161). -/
theorem widthOfCode_eq_getD (wcode : BitVec 2) : widthOfCode wcode = [8, 16, 32, 64].getD wcode.toNat 0 := by
  revert wcode
  decide

section
variable {s : State} (tscap za : Bit) (wcode : BitVec 2)

theorem execInit_of_enabled (hp : s.phase = .uninit ∨ s.phase = .stopped) :
    execInit tscap za wcode s = .next ((initState tscap za wcode s).answer opcInit .ok []) := if_pos hp

theorem execInit_of_refused (h1 : s.phase ≠ .uninit) (h2 : s.phase ≠ .stopped) :
    execInit tscap za wcode s = .next (s.answer opcInit .invalid []) := if_neg (not_or.mpr ⟨h1, h2⟩)

end

theorem execShutdown_of_resting {s : State} (hp : s.phase = .idle ∨ s.phase = .failed) :
    execShutdown s = .next ({ s.tornDown with phase := .stopped }.answer opcShutdown .ok []) := by
  rcases hp with hp | hp <;> rw [execShutdown, hp, teardown_eq]

theorem execShutdown_of_exchanging {s : State} (hp : s.phase = .exchanging) :
    execShutdown s = .next { s with phase := .draining, shutCaller := some s.portCaller } := by
  rw [execShutdown, hp]

theorem execShutdown_of_ending {s : State} (hp : s.phase = .draining ∨ s.phase = .stopped) :
    execShutdown s = .next (s.answer opcShutdown .ok []) := by
  rcases hp with hp | hp <;> rw [execShutdown, hp]

theorem execShutdown_of_uninit {s : State} (hp : s.phase = .uninit) :
    execShutdown s = .next (s.answer opcShutdown .notInitialized []) := by
  rw [execShutdown, hp]

/-! ### Timestamp mode (45_lifecycle_status.md R352, R353)

The two commands tell three groups of phases apart: `UNINIT`; `DRAINING` and `STOPPED`, in which the engine is ending; and the
others, in which it serves them. -/

section
variable {s : State}

theorem not_uninit_of_ending (hp : s.phase = .draining ∨ s.phase = .stopped) : s.phase ≠ .uninit := by
  rcases hp with hp | hp <;> simp [hp]

theorem not_uninit_of_serving (hp : s.phase = .idle ∨ s.phase = .exchanging ∨ s.phase = .failed) :
    s.phase ≠ .uninit := by
  rcases hp with hp | hp | hp <;> simp [hp]

theorem not_ending_of_serving (hp : s.phase = .idle ∨ s.phase = .exchanging ∨ s.phase = .failed) :
    ¬(s.phase = .draining ∨ s.phase = .stopped) := by
  rcases hp with hp | hp | hp <;> simp [hp]

theorem execTsEnable_of_serving (hp : s.phase = .idle ∨ s.phase = .exchanging ∨ s.phase = .failed) :
    execTsEnable s =
      if s.cfgTscap = true then .next ({ s with tsEn := true }.answer opcTsEnable .ok [])
      else .next (s.answer opcTsEnable .unsupported []) := by
  rw [execTsEnable, if_neg (not_uninit_of_serving hp), if_neg (not_ending_of_serving hp)]
  cases s.cfgTscap <;> rfl

theorem execTsEnable_of_ending (hp : s.phase = .draining ∨ s.phase = .stopped) :
    execTsEnable s = .next (s.answer opcTsEnable .shutdown []) := by
  rw [execTsEnable, if_neg (not_uninit_of_ending hp), if_pos hp]

theorem execTsEnable_of_uninit (hp : s.phase = .uninit) :
    execTsEnable s = .next (s.answer opcTsEnable .notInitialized []) := if_pos hp

theorem execTsDisable_of_serving (hp : s.phase = .idle ∨ s.phase = .exchanging ∨ s.phase = .failed) :
    execTsDisable s = .next ({ s with tsEn := false }.answer opcTsDisable .ok []) := by
  rw [execTsDisable, if_neg (not_uninit_of_serving hp), if_neg (not_ending_of_serving hp)]

theorem execTsDisable_of_ending (hp : s.phase = .draining ∨ s.phase = .stopped) :
    execTsDisable s = .next (s.answer opcTsDisable .shutdown []) := by
  rw [execTsDisable, if_neg (not_uninit_of_ending hp), if_pos hp]

theorem execTsDisable_of_uninit (hp : s.phase = .uninit) :
    execTsDisable s = .next (s.answer opcTsDisable .notInitialized []) := if_pos hp

end

/-! ### The status words (45_lifecycle_status.md R354, R356 to R359) -/

theorem execStatusRead_of_initialized {s : State} (hp : s.phase ≠ .uninit) :
    execStatusRead s = .next (s.answer opcStatusRead .ok (statusWords s)) := if_neg hp

theorem execStatusRead_of_uninit {s : State} (hp : s.phase = .uninit) :
    execStatusRead s = .next (s.answer opcStatusRead .notInitialized []) := if_pos hp

theorem saturate16_toNat (n : Nat) : (saturate16 n).toNat = min n 0xFFFF := by
  rw [saturate16, BitVec.toNat_ofNat]
  omega

/-- The two codes, `WCODE` and the reserved field of S0. -/
theorem statusS0_fields (s : State) :
    (statusS0 s).extractLsb' 0 3 = s.phase.code ∧ (statusS0 s).extractLsb' 3 2 = s.fatalCause.code ∧
      (statusS0 s).extractLsb' 11 2 = s.cfgWcode ∧ (statusS0 s).extractLsb' 21 11 = 0#11 := by
  simp (disch := decide) only [statusS0, extract_above, extract_within, Nat.reduceSub, BitVec.extractLsb'_eq_self, and_self]

theorem getLsbD_above {v w i : Nat} (a : BitVec v) (b : BitVec w) (h : w ≤ i) :
    (a ++ b).getLsbD i = a.getLsbD (i - w) := by
  rw [BitVec.getLsbD_append, if_neg (Nat.not_lt.mpr h)]

theorem getLsbD_within {v w i : Nat} (a : BitVec v) (b : BitVec w) (h : i < w) : (a ++ b).getLsbD i = b.getLsbD i := by
  rw [BitVec.getLsbD_append, if_pos h]

theorem getLsbD_flag (flag : Bool) : (BitVec.ofBool flag).getLsbD 0 = flag := by
  cases flag <;> rfl

/-- The modes and latches of S0, in its bits 5 to 10. -/
theorem statusS0_modes (s : State) :
    (statusS0 s).getLsbD 5 = s.irqPending ∧ (statusS0 s).getLsbD 6 = s.freshWake ∧
      (statusS0 s).getLsbD 7 = s.syncSeen ∧ (statusS0 s).getLsbD 8 = s.tsEn ∧ (statusS0 s).getLsbD 9 = s.cfgZa ∧
      (statusS0 s).getLsbD 10 = s.cfgTscap := by
  simp (disch := decide) only [statusS0, getLsbD_above, getLsbD_within, getLsbD_flag, Nat.reduceSub, and_self]

/-- The frames in progress, a reserved bit and the sticky flags of S0, in its bits 13 to 20. -/
theorem statusS0_flags (s : State) :
    (statusS0 s).getLsbD 13 = (s.rxst == .asm) ∧ (statusS0 s).getLsbD 14 = s.txcur.isSome ∧
      (statusS0 s).getLsbD 15 = false ∧ (statusS0 s).getLsbD 16 = s.stUnsync ∧ (statusS0 s).getLsbD 17 = s.stExst ∧
      (statusS0 s).getLsbD 18 = s.stHdrb ∧ (statusS0 s).getLsbD 19 = s.stUnreach ∧
      (statusS0 s).getLsbD 20 = s.stFtrerr := by
  simp (disch := decide) only [statusS0, getLsbD_above, getLsbD_within, getLsbD_flag, Nat.reduceSub,
    BitVec.getLsbD_zero, and_self]

theorem statusS1_fields (s : State) :
    (statusS1 s).extractLsb' 0 5 = s.txc ∧ (statusS1 s).extractLsb' 5 3 = 0#3 ∧ (statusS1 s).extractLsb' 8 5 = s.rca ∧
      (statusS1 s).extractLsb' 13 3 = 0#3 ∧ (statusS1 s).extractLsb' 16 16 = saturate16 s.stallPolls := by
  simp (disch := decide) only [statusS1, extract_above, extract_within, Nat.reduceSub, BitVec.extractLsb'_eq_self, and_self]

theorem statusS6_fields (s : State) :
    (statusS6 s).extractLsb' 0 16 = saturate16 s.txq.length ∧
      (statusS6 s).extractLsb' 16 16 = saturate16 s.rxq.length := by
  simp (disch := decide) only [statusS6, extract_above, extract_within, Nat.reduceSub, BitVec.extractLsb'_eq_self, and_self]

theorem statusS7_fields (s : State) :
    (statusS7 s).getLsbD 0 = s.slot.isSome ∧ (statusS7 s).extractLsb' 1 15 = 0#15 ∧
      (statusS7 s).extractLsb' 16 16 = saturate16 s.ctrlq.length := by
  refine ⟨(getLsbD_within _ _ Nat.zero_lt_one).trans (getLsbD_flag _), ?_⟩
  simp (disch := decide) only [statusS7, extract_above, extract_within, Nat.reduceSub, BitVec.extractLsb'_eq_self, and_self]

/-! ### STATUS_CLEAR (45_lifecycle_status.md R355) -/

theorem clearFlag_eq (mask : BitVec 16) (i : Nat) (flag : Bool) :
    clearFlag mask i flag = if mask.getLsbD i then false else flag := by
  rw [clearFlag]
  cases mask.getLsbD i <;> simp

theorem maskOk_iff {mask : BitVec 16} : maskOk mask = true ↔ mask &&& 0xF0E0#16 = 0#16 := beq_iff_eq

theorem execStatusClear_of_initialized {mask : BitVec 16} {s : State} (hm : maskOk mask = true) (hp : s.phase ≠ .uninit) :
    execStatusClear mask s = .next ((clearStatus mask s).answer opcStatusClear .ok []) := by
  rw [execStatusClear, if_neg (by simp [hm]), if_neg hp]

/-! ### The phase table of TX_ENQUEUE (45_lifecycle_status.md R360) -/

theorem execTxEnqueue_of_rejected {frame : List Byte} {s : State} {code : Status} (h1 : 1 ≤ frame.length)
    (h2 : frame.length ≤ s.par.txMaxFrame) (hr : phaseReject s = some code) :
    execTxEnqueue frame s = .next (s.answer opcTxEnqueue code []) := by
  rw [execTxEnqueue, if_neg (by simp [frameLenOk_eq_true h1 h2]), hr]

/-! ### The obligations -/

/-- Settles O8: with no held command to accept the step is that of the next input, or of the scheduler where there is none. -/
theorem stepRunsTheDecodedInstruction : Obligations.StepRunsTheDecodedInstruction := by
  refine ⟨?command, ?given, ?free, ?completion⟩
  case command =>
    intro s c d rest i hn hc hi hd
    rw [step_of_event hn hi, fetchEvent_cmd (s := { s with inputs := rest }) hc, fetchCmd_ok hd]
    rfl
  case given =>
    intro s rest w i hn hi hw hd
    rw [step_of_event hn hi, fetchEvent, fetchIssue_some (s := { s with inputs := rest }) hw hd]
    rfl
  case free =>
    intro s w i hn hi hw hd
    rw [step_of_no_event hn hi, fetchIssue_some hw hd]
    rfl
  case completion =>
    intro s bytes rest w i hn hi hp hl hw hd
    rw [step_of_event hn hi, fetchEvent, fetchInbound_some (s := { s with inputs := rest }) hp hl hw hd]
    rfl

/-- Settles O14: INIT writes every element of R55, and the width is the one that the spec lists for `WCODE`. -/
theorem initSetsEveryElement : Obligations.InitSetsEveryElement := by
  intro s tscap za wcode
  refine ⟨fun hp => ⟨_, execInit_of_enabled tscap za wcode hp, rfl, widthOfCode_eq_getD wcode, ?_⟩, fun h1 h2 => ?_⟩
  · and_intros <;> rfl
  · exact execInit_of_refused tscap za wcode h1 h2

/-- Settles O15, by the four rows of the command's table. -/
theorem shutdownInEveryPhase : Obligations.ShutdownInEveryPhase := fun _ =>
  ⟨execShutdown_of_resting, execShutdown_of_exchanging, execShutdown_of_ending, execShutdown_of_uninit⟩

/-- Settles O16: the phase is checked first, then the capability. -/
theorem timestampEnable : Obligations.TimestampEnable := fun _ =>
  ⟨execTsEnable_of_serving, execTsEnable_of_ending, execTsEnable_of_uninit⟩

/-- Settles O17: the phase alone is checked, and no element of the receive frame is written. -/
theorem timestampDisable : Obligations.TimestampDisable := fun _ =>
  ⟨execTsDisable_of_serving, execTsDisable_of_ending, execTsDisable_of_uninit⟩

/-- Settles O18: the answer is the only effect, and its words after the first are S0 to S7. -/
theorem statusReadAnswersEightWords : Obligations.StatusReadAnswersEightWords := fun _ =>
  ⟨execStatusRead_of_initialized, execStatusRead_of_uninit⟩

/-- Settles O19, word by word; a count that does not fit its field saturates. -/
theorem statusWordFields : Obligations.StatusWordFields := by
  intro s
  obtain ⟨hphase, hcause, hwcode, hreserved⟩ := statusS0_fields s
  obtain ⟨hirq, hfresh, hsync, hts, hza, htscap⟩ := statusS0_modes s
  obtain ⟨hrx, htx, h15, hunsync, hexst, hhdrb, hunreach, hftrerr⟩ := statusS0_flags s
  obtain ⟨htxc, h1low, hrca, h1high, hpolls⟩ := statusS1_fields s
  obtain ⟨htxq, hrxq⟩ := statusS6_fields s
  obtain ⟨hslot, h7, hctrlq⟩ := statusS7_fields s
  refine ⟨hphase.trans ?phase, hcause.trans ?cause, hirq, hfresh, hsync, hts, hza, htscap, hwcode, hrx, htx, h15, hunsync,
    hexst, hhdrb, hunreach, hftrerr, hreserved, htxc, h1low, hrca, h1high, ?polls, ?txq, ?rxq, hslot, h7, ?ctrlq⟩
  case phase => cases s.phase <;> rfl
  case cause => cases s.fatalCause <;> rfl
  case polls => rw [hpolls, saturate16_toNat]
  case txq => rw [htxq, saturate16_toNat]
  case rxq => rw [hrxq, saturate16_toNat]
  case ctrlq => rw [hctrlq, saturate16_toNat]

/-- Settles O20: the mask is checked before the phase, and each flag and counter looks at its own bit of the mask. -/
theorem statusClearClearsTheSelected : Obligations.StatusClearClearsTheSelected := by
  intro s mask
  refine ⟨fun hm => ?invalid, fun hm hp => ?cleared, fun hm hp => ?uninit⟩
  case invalid => exact execStatusClear_of_invalid s (Bool.eq_false_iff.mpr (mt maskOk_iff.mp hm))
  case cleared =>
    simp only [← clearFlag_eq]
    exact execStatusClear_of_initialized (maskOk_iff.mpr hm) hp
  case uninit =>
    rw [exec, execStatusClear_of_uninit mask hp, if_neg (by simp [maskOk_iff.mpr hm])]
    rfl

/-- Settles O22: valid operands pass the command's own check, and the phase answers with its code. -/
theorem phaseRejectsRegAndTx : Obligations.PhaseRejectsRegAndTx := by
  intro s i opc code hi (hcode : s.RejectsWith code)
  obtain ⟨st, hrej, rfl⟩ := hcode.phaseReject_eq
  rw [← answer_without_data]
  rcases hi with ⟨rfl, aid, mms, addr, count, h1, h2, rfl⟩ | ⟨rfl, aid, mms, addr, vals, h1, h2, rfl⟩ |
    ⟨rfl, frame, h1, h2, rfl⟩
  · exact exec_reg_of_rejected (.inl ⟨rfl, aid, mms, addr, count, rfl⟩) (countOk_eq_true h1 h2) hrej
  · exact exec_reg_of_rejected (.inr ⟨rfl, aid, mms, addr, vals, rfl⟩) (countOk_eq_true h1 h2) hrej
  · exact execTxEnqueue_of_rejected h1 h2 hrej

end Sys2Proof.Machine

/-! PROOFS: three laws that the spec marks as derived. Every encoder gives its word the parity bit, so a decoder reads the fields
back and finds consistent parity (40_wire_codec.md section 4); an echo with the fields of a header and consistent parity is that
header (42_control_transactions.md R227); and the chunks of a frame are the frame cut at the multiples of the payload width
(43_data_framer.md section 1). -/

namespace Sys2Proof.Machine

open Sys2Proof.Laws (extract_above extract_within)

/-! ### Encoder outputs have consistent parity (40_wire_codec.md R172 to R174, R181) -/

theorem parityOk_encodeCtrlHeader (sense : ParitySense) (wnr aid : Bit) (mms : BitVec 4) (addr : BitVec 16) (n : Nat) :
    parityOk sense (encodeCtrlHeader sense wnr aid mms addr n) = true :=
  parityOk_withParity sense (ctrlWord_parity ..)

theorem parityOk_encodeDataHeader (sense : ParitySense) (sv ev : Bit) (endCount : Nat) :
    parityOk sense (encodeDataHeader sense sv ev endCount) = true :=
  parityOk_withParity sense (dataWord_fields sv ev _ 0#1).2.2.2

theorem parityOk_pollHeader (sense : ParitySense) : parityOk sense (pollHeader sense) = true :=
  parityOk_withParity sense (pollWord_fields 0#1).2.2

theorem parityOk_footer (sense : ParitySense) (f : Footer) : parityOk sense (withParity sense (footerWord f 0#1)) = true :=
  parityOk_withParity sense (footerWord_parity f 0#1)

/-! ### Decoders read the fields back (40_wire_codec.md R175, R176, R180) -/

/-- The parity bit is no field of a footer. -/
theorem footerFields_withParity (sense : ParitySense) (h0 : Word32) :
    footerFields (withParity sense h0) = footerFields h0 := by
  simp (disch := decide) only [footerFields, extractLsb'_withParity]

/-- The parity bit is no field of a data header. -/
theorem dataHeaderFields_withParity (sense : ParitySense) (h0 : Word32) :
    dataHeaderFields (withParity sense h0) = dataHeaderFields h0 := by
  simp (disch := decide) only [dataHeaderFields, extractLsb'_withParity]

/-- The fields of a data header: its marks and end offset, and the fixed choices of 30_encoding.md R124. -/
theorem dataHeaderFields_dataWord (sv ev : Bit) (ebo : BitVec 6) (p : Bit) :
    dataHeaderFields (dataWord sv ev ebo p) =
      { dnc := 1#1, seq := 0#1, norx := 0#1, vs := 0#2, dv := 1#1, sv := sv, swo := 0#4, ev := ev, ebo := ebo
        tsc := 0#2 } := by
  simp (disch := decide) only [dataHeaderFields, dataWord_above, extract_above, extract_within, Nat.reduceSub,
    BitVec.extractLsb'_eq_self]

/-- What the data header decoder answers for the four bytes of a word (40_wire_codec.md R180). -/
theorem decodeDataHeader_toBE32 (sense : ParitySense) (w : Word32) :
    decodeDataHeader sense (toBE32 w) = if parityOk sense w = false then .parity else .valid (dataHeaderFields w) := by
  simp [decodeDataHeader]

theorem decodeFooter_encodeFooter (sense : ParitySense) {width : Nat} {f : Footer} (h : f.malformed width = false) :
    decodeFooter sense width (encodeFooter sense f) = .valid f := by
  rw [encodeFooter, decodeFooter_toBE32, footerFields_withParity, footerFields_footerWord, parityOk_footer, h]
  rfl

theorem decodeEcho_encodeCtrlHeader (sense : ParitySense) (wnr aid : Bit) (mms : BitVec 4) (addr : BitVec 16) (n : Nat) :
    decodeEcho sense (toBE32 (encodeCtrlHeader sense wnr aid mms addr n)) =
      .echo { dnc := 0#1, hdrb := 0#1, wnr := wnr, aid := aid, mms := mms, addr := addr, len := BitVec.ofNat 7 (n - 1) } := by
  rw [decodeEcho_toBE32, parityOk_encodeCtrlHeader, encodeCtrlHeader, echoFields_withParity, echoFields_ctrlWord]
  rfl

theorem decodeDataHeader_encodeDataHeader (sense : ParitySense) (sv ev : Bit) (c : Nat) :
    decodeDataHeader sense (toBE32 (encodeDataHeader sense sv ev c)) =
      .valid { dnc := 1#1, seq := 0#1, norx := 0#1, vs := 0#2, dv := 1#1, sv := sv, swo := 0#4, ev := ev
               ebo := if ev = 1#1 then BitVec.ofNat 6 (c - 1) else 0#6, tsc := 0#2 } := by
  rw [decodeDataHeader_toBE32, parityOk_encodeDataHeader, encodeDataHeader, dataHeaderFields_withParity,
    dataHeaderFields_dataWord]
  rfl

/-! ### The chunks of a frame (43_data_framer.md R261, R262) -/

/-- Cursor `k * width` lies within a frame of `len` bytes exactly for the first `ceil(len / width)` chunks. -/
theorem lt_ceilDiv_iff {len width k : Nat} (hw : 1 ≤ width) : k < (len + width - 1) / width ↔ k * width < len := by
  rw [← Nat.succ_le_iff, Nat.le_div_iff_mul_le hw, Nat.succ_mul]
  omega

/-- The bytes left for the last chunk: the remainder, or a full payload where the width divides the length. -/
theorem lastChunk_eq {len width k : Nat} (h1 : k * width < len) (h2 : len ≤ (k + 1) * width) :
    (if len % width = 0 then width else len % width) = len - k * width := by
  obtain ⟨r, rfl⟩ := Nat.exists_eq_add_of_lt h1
  rw [Nat.succ_mul] at h2
  have hmod : (k * width + r + 1) % width = (r + 1) % width := by
    rw [Nat.add_assoc, Nat.add_comm, Nat.add_mul_mod_self_right]
  rw [hmod]
  rcases Nat.lt_or_eq_of_le (show r + 1 ≤ width by omega) with hr | hr
  · rw [Nat.mod_eq_of_lt hr, if_neg (Nat.succ_ne_zero r)]
    omega
  · rw [hr, Nat.mod_self, if_pos rfl]
    omega

/-- The frame bytes of a chunk are the next ones, a full payload or what is left. -/
theorem memRead_chunkLen (width : Nat) (c : TxCur) :
    memRead c.frame c.cur (chunkLen width c) = (c.frame.drop c.cur).take width := by
  rw [memRead, chunkLen, ← List.length_drop, ← List.take_take, List.take_length]

/-- What a receiver keeps of a payload is its frame bytes. -/
theorem chunkPayload_take (width : Nat) (c : TxCur) :
    (chunkPayload width c).take (chunkLen width c) = (c.frame.drop c.cur).take width := by
  have hlen : (memRead c.frame c.cur (chunkLen width c)).length = chunkLen width c := by
    rw [memRead_length, chunkLen]
    omega
  rw [chunkPayload, List.take_left' hlen, memRead_chunkLen]

/-- Cutting a list at the multiples of a width and joining the first `n` pieces gives its first `n * width` elements. -/
theorem flatMap_pieces {α : Type} (l : List α) (width n : Nat) :
    ((List.range n).flatMap fun k => (l.drop (k * width)).take width) = l.take (n * width) := by
  induction n with
  | zero => simp
  | succ n ih => rw [List.range_succ, List.flatMap_append, ih, List.flatMap_singleton, Nat.succ_mul, List.take_add]

/-! ### The obligations -/

/-- Settles O6: with its parity right and the header-bad flag clear, an echo passes the comparison exactly when it is the
header. -/
theorem echoMatchesIffItIsTheHeader : Obligations.EchoMatchesIffItIsTheHeader := by
  intro par t w hmade h0 h1
  constructor
  · intro hmatch
    rw [classify_of_reply h0 h1] at hmatch
    split_ifs at hmatch with hp hb hd
    exact (hmade.echoDiffers_eq_false_iff (by simpa using hp) (bit_ne_one.mp hb)).mp (by simpa using hd)
  · rintro rfl
    exact hmade.classify_hdr h0

/-- Settles O5: each round trip is the decoder on a word that was given its parity bit. -/
theorem codecRoundTrips : Obligations.CodecRoundTrips := by
  intro sense
  refine ⟨fun width f hf => decodeFooter_encodeFooter sense hf,
    fun wnr aid mms addr n _ _ => decodeEcho_encodeCtrlHeader sense wnr aid mms addr n,
    fun sv ev c _ => decodeDataHeader_encodeDataHeader sense sv ev c, parityOk_encodeCtrlHeader sense,
    parityOk_encodeDataHeader sense, parityOk_pollHeader sense, fun f => ?_⟩
  rw [encodeFooter, be32_toBE32]
  exact parityOk_footer sense f

/-- Settles O35: chunk `k` is the last exactly where the frame ends within its payload, and the frame bytes of the chunks are the
pieces of the frame. -/
theorem segmentationLaw : Obligations.SegmentationLaw := by
  rintro sense frame width hret N hw - hN
  have hbefore : ∀ k, k < N ↔ k * width < frame.length := fun k => hN ▸ lt_ceilDiv_iff hw
  refine ⟨fun k hk => ?chunk, ?together⟩
  case chunk =>
    have hcur : k * width < frame.length := (hbefore k).mp hk
    have hnext : (k + 1) * width = k * width + width := Nat.succ_mul k width
    have hlast : k + 1 = N ↔ frame.length ≤ (k + 1) * width := by
      rw [← Nat.not_lt, ← hbefore]
      omega
    have hmin : chunkLen width ⟨frame, k * width, hret⟩ = min width (frame.length - k * width) := rfl
    have hend : k * width + chunkLen width ⟨frame, k * width, hret⟩ = frame.length ↔ k + 1 = N := by
      rw [hlast, hnext, hmin]
      omega
    have hlen : chunkLen width ⟨frame, k * width, hret⟩ =
        if k + 1 = N then (if frame.length % width = 0 then width else frame.length % width) else width := by
      by_cases h : k + 1 = N
      · rw [if_pos h, lastChunk_eq hcur (hlast.mp h)]
        exact Nat.eq_sub_of_add_eq' (hend.mpr h)
      · have hmore := Nat.not_le.mp (mt hlast.mpr h)
        rw [if_neg h, hmin]
        omega
    have hfirst : k * width = 0 ↔ k = 0 := Nat.mul_eq_zero.trans (or_iff_left (Nat.ne_of_gt hw))
    refine ⟨hlen, hcur, hend, fun h => by rw [hlen, if_neg h, hnext], ?_, ?_⟩
    · rw [chunkPayload, memRead_chunkLen]
    · rw [← hlen]
      simp only [chunkHeader, ofBool_beq, hfirst, hend]
  case together =>
    simp only [chunkPayload_take, flatMap_pieces]
    exact List.take_of_length_le (Nat.not_lt.mp (mt (hbefore N).mpr (Nat.lt_irrefl N)))

end Sys2Proof.Machine

/-! PROOFS: every step keeps the invariant (10_state.md R50). The invariant is split into four parts, each about the elements of
one unit: the configuration, the control slot and its queue, the transmit frames, and the receive frames. An operation is shown
to keep the part it writes; the parts also hold while an inbound word is processed, where the clauses about the phase do not.
What remains are the places where the phase changes: the exchange that starts, its end, and the lifecycle commands. -/

namespace Sys2Proof.Machine

/-! ### The parts of the invariant (10_state.md R50) -/

/-- The configuration is legal (00_scope.md R11, 30_encoding.md R161). -/
structure ConfigOk (par : Params) (wcode : BitVec 2) (width : Nat) : Prop where
  legal : par.Legal
  width : width = widthOfCode wcode

/-- The control slot and the queue behind it (10_state.md R40, R41). -/
structure CtrlOk (par : Params) (slot : Option Txn) (ctrlq : List Txn) : Prop where
  slotFirst : slot = none → ctrlq = []
  room : ctrlq.length ≤ par.ctrlqCap
  made : ∀ a ∈ slot.toList ++ ctrlq, a.Made par
  slotBounds : ∀ a, slot = some a → a.pfail ≤ par.parityRetryMax ∧ a.nrep < par.ctrlTimeoutIters
  waiting : ∀ a ∈ ctrlq, a.pfail = 0 ∧ a.nrep = 0

/-- The transmit frame in flight and the queue behind it (10_state.md R42, R43). -/
structure TxOk (par : Params) (txcur : Option TxCur) (txq : List (List Byte)) : Prop where
  room : txq.length ≤ par.txqCap
  current : ∀ c, txcur = some c →
    c.cur < c.frame.length ∧ c.frame.length ≤ par.txMaxFrame ∧ c.hret ≤ par.parityRetryMax
  waiting : ∀ f ∈ txq, 1 ≤ f.length ∧ f.length ≤ par.txMaxFrame

/-- The receive frame in progress and the delivered frames (10_state.md R44, R45). -/
structure RxOk (par : Params) (rxst : RxState) (rxbuf : List Byte) (rxts : Bool) (rxq : List RxFrame) : Prop where
  room : rxq.length ≤ par.rxqCap
  assembly : rxst = .asm → 1 ≤ rxbuf.length ∧ rxbuf.length ≤ par.rxMaxFrame
  clean : rxst = .idle → rxbuf = [] ∧ rxts = false
  delivered : ∀ f ∈ rxq, 1 ≤ f.bytes.length ∧ f.bytes.length ≤ par.rxMaxFrame

/-- The receive part of the invariant in `s`. -/
abbrev State.RxOk (s : State) : Prop := Machine.RxOk s.par s.rxst s.rxbuf s.rxts s.rxq

/-- The transmit part of the invariant in `s`. -/
abbrev State.TxOk (s : State) : Prop := Machine.TxOk s.par s.txcur s.txq

/-- The parts of the invariant that also hold while an inbound word is processed. -/
structure State.PartsOk (s : State) : Prop where
  config : ConfigOk s.par s.cfgWcode s.cfgW
  ctrl : CtrlOk s.par s.slot s.ctrlq
  tx : s.TxOk
  rx : s.RxOk

theorem State.Inv.parts {s : State} (h : s.Inv) : s.PartsOk where
  config := ⟨h.legal, h.width⟩
  ctrl := ⟨h.slotFirst, h.capacities.1, h.txns, h.slotBounds, h.waiting⟩
  tx := ⟨h.capacities.2.1, h.txcurBounds, h.txqFrames⟩
  rx := ⟨h.capacities.2.2, h.rxAssembly, h.rxIdle, h.rxqFrames⟩

/-- No exchange is in flight (44_transfer_scheduler.md R318). -/
structure State.NoExchange (s : State) : Prop where
  xkind : s.xkind = .none
  xout : s.xout = []
  xlen : s.xlen = 0
  xin : s.xin = []

theorem clearExchange_noExchange (s : State) : (clearExchange s).NoExchange := ⟨rfl, rfl, rfl, rfl⟩

/-- An idle or failed engine has no exchange in flight. -/
theorem State.Inv.noExchange {s : State} (h : s.Inv) (hp : s.phase = .idle ∨ s.phase = .failed) : s.NoExchange := by
  have hk := h.xkind_none hp
  obtain ⟨hout, hlen⟩ := h.outbound.none hk
  exact ⟨hk, hout, hlen, h.noInbound⟩

/-- A SHUTDOWN waits only while the engine drains (10_state.md R58). -/
theorem State.Inv.shutCaller_none {s : State} (h : s.Inv) (hp : s.phase ≠ .draining) : s.shutCaller = none := by
  simpa using mt h.shutdown.mp hp

/-- Where no exchange is in flight, the invariant is its parts and what the phase asks for. -/
theorem State.PartsOk.inv {s : State} (h : s.PartsOk) (hx : s.NoExchange) (hshut : s.shutCaller = none)
    (hflight : ¬(s.phase = .exchanging ∨ s.phase = .draining))
    (hfailed : s.phase = .failed → s.fatalCause ≠ .none ∧ s.slot = none) (hidle : s.phase = .idle → s.fatalCause = .none)
    (hstopped : s.phase = .stopped → s.slot = none ∧ s.txcur = none ∧ s.txq = [] ∧ s.rxst = .idle) : s.Inv where
  legal := h.config.legal
  width := h.config.width
  slotFirst := h.ctrl.slotFirst
  capacities := ⟨h.ctrl.room, h.tx.room, h.rx.room⟩
  exchange := iff_of_false (not_not.mpr hx.xkind) hflight
  outbound :=
    { none := fun _ => ⟨hx.xout, hx.xlen⟩
      ctrl := fun hk => absurd (hx.xkind.symm.trans hk) nofun
      data := fun hk => absurd (hx.xkind.symm.trans hk) nofun
      poll := fun hk => absurd (hx.xkind.symm.trans hk) nofun }
  txns := h.ctrl.made
  slotBounds := h.ctrl.slotBounds
  waiting := h.ctrl.waiting
  txcurBounds := h.tx.current
  txqFrames := h.tx.waiting
  rxAssembly := h.rx.assembly
  rxIdle := h.rx.clean
  rxqFrames := h.rx.delivered
  failed := hfailed
  running := fun hp => hidle (hp.resolve_right hflight)
  stopped := hstopped
  shutdown := iff_of_false (by simp [hshut]) fun hp => hflight (.inr hp)
  noInbound := hx.xin

theorem CtrlOk.empty (par : Params) : CtrlOk par none [] where
  slotFirst _ := rfl
  room := Nat.zero_le _
  made := nofun
  slotBounds := nofun
  waiting := nofun

theorem TxOk.empty (par : Params) : TxOk par none [] where
  room := Nat.zero_le _
  current := nofun
  waiting := nofun

/-- Nothing is in progress, and the frames are those delivered before. -/
theorem RxOk.atRest {par : Params} {rxst : RxState} {rxbuf : List Byte} {rxts : Bool} {rxq : List RxFrame}
    (h : RxOk par rxst rxbuf rxts rxq) : RxOk par .idle [] false rxq :=
  ⟨h.room, nofun, fun _ => ⟨rfl, rfl⟩, h.delivered⟩

/-! ### The receive frames (43_data_framer.md R276 to R279) -/

section
variable {s : State} (h : s.RxOk)
include h

theorem dropped_rxOk : s.dropped.RxOk := h.atRest

theorem dropIfAsm_rxOk : s.dropIfAsm.RxOk := by
  unfold State.dropIfAsm
  split
  · exact dropped_rxOk h
  · exact h

/-- A frame within the bounds is delivered or lost. -/
theorem delivered_rxOk {bytes : List Byte} (ts : Bool) (h1 : 1 ≤ bytes.length) (h2 : bytes.length ≤ s.par.rxMaxFrame) :
    (s.delivered bytes ts).RxOk := by
  unfold State.delivered
  split
  · exact h.atRest
  · rename_i hfull
    refine { h.atRest with room := ?_, delivered := fun f hf => ?_ }
    · have := h.room
      simp only [List.length_append, List.length_cons, List.length_nil]
      omega
    · rcases List.mem_append.mp hf with hf | hf
      · exact h.delivered f hf
      · cases List.mem_singleton.mp hf
        exact ⟨h1, h2⟩

/-- A frame that starts with at least one byte is in progress, or too long. -/
theorem started_rxOk {bytes : List Byte} (rtsa : Bit) (h1 : 1 ≤ bytes.length) : (s.started bytes rtsa).RxOk := by
  unfold State.started
  split
  · exact dropped_rxOk h
  · rename_i hlong
    exact ⟨h.room, fun _ => ⟨h1, Nat.not_lt.mp hlong⟩, nofun, h.delivered⟩

theorem rxNoData_rxOk (b : FooterBits) : (rxNoData b s).RxOk := by
  rw [rxNoData_eq]
  split
  · exact dropIfAsm_rxOk h
  · exact h

/-- The frame in progress has its first byte, so it stays within the bounds whatever is appended. -/
theorem rxContinue_rxOk (b : FooterBits) (payload : List Byte) : (rxContinue b payload s).RxOk := by
  rw [rxContinue_eq]
  split_ifs with hidle hdrop
  · exact h
  · exact dropped_rxOk h
  · obtain ⟨-, hlong⟩ := not_or.mp hdrop
    have hfirst := (h.assembly (rxst_ne_idle.mp hidle)).1
    refine { h with assembly := fun _ => ?_, clean := fun hi => absurd hi hidle }
    simp only [List.length_append]
    omega

theorem rxEnd_rxOk (b : FooterBits) (payload : List Byte) : (rxEnd b payload s).RxOk := by
  rw [rxEnd_eq]
  split_ifs with hidle hdrop
  · exact h
  · exact dropped_rxOk h
  · obtain ⟨-, hlong⟩ := not_or.mp hdrop
    have hfirst := (h.assembly (rxst_ne_idle.mp hidle)).1
    refine delivered_rxOk h _ ?_ ?_ <;> simp only [List.length_append] <;> omega

end

theorem bytesFromTo_length_pos {l : List Byte} {i j : Nat} (hij : i ≤ j) (hi : i < l.length) :
    1 ≤ (bytesFromTo l i j).length := by
  rw [bytesFromTo, memRead_length]
  omega

section
variable {s : State} {b : FooterBits} {payload : List Byte} (h : s.RxOk) (hlen : payload.length = s.cfgW)
  (hstart : startByte b < s.cfgW)
include h hlen hstart

theorem rxBegin_rxOk : (rxBegin b payload s).RxOk := by
  rw [rxBegin_eq]
  split
  · exact dropIfAsm_rxOk h
  · exact started_rxOk (dropIfAsm_rxOk h) _ (bytesFromTo_length_pos (by omega) (by omega))

theorem rxWhole_rxOk (hend : startByte b ≤ endByte b) : (rxWhole b payload s).RxOk := by
  have hdrop := dropIfAsm_rxOk h
  rw [rxWhole_eq]
  split_ifs with hfd hza hlong
  · exact hdrop
  · exact hdrop
  · exact dropped_rxOk hdrop
  · refine delivered_rxOk hdrop _ (bytesFromTo_length_pos hend (by omega)) ?_
    rw [dropIfAsm_par]
    exact Nat.not_lt.mp hlong

theorem rxEndThenStart_rxOk : (rxEndThenStart b payload s).RxOk := by
  have hended := rxEnd_rxOk h b payload
  rw [rxEndThenStart_eq]
  split
  · exact hended
  · exact started_rxOk hended _ (bytesFromTo_length_pos (by omega) (by omega))

end

/-- A footer that is not malformed starts no frame outside the payload (30_encoding.md R131, M2). -/
theorem Footer.start_lt {f : Footer} {width : Nat} (h : f.malformed width = false) (hsv : f.sv = 1#1) :
    4 * f.swo.toNat < width := by
  simp only [Footer.malformed, Footer.m2, Bool.or_eq_false_iff] at h
  simpa [hsv] using h.1.2

/-- The receive side of a valid footer: each row keeps the receive part, since a frame starts within the payload. -/
theorem rxChunk_rxOk {s : State} {f : Footer} {payload : List Byte} (h : s.RxOk) (hlen : payload.length = s.cfgW)
    (hf : f.malformed s.cfgW = false) : (rxChunk f payload s).RxOk := by
  have hbits : f = footerOf f.dv f.sv f.ev (f.bits 0#1) := rfl
  have hstart : f.sv = 1#1 → startByte (f.bits 0#1) < s.cfgW := fun hsv => Footer.start_lt hf hsv
  have bit : ∀ x : Bit, x = 0#1 ∨ x = 1#1 := by decide
  rw [hbits]
  rcases bit f.dv with hd | hd
  · rw [hd, rxChunk_noData]
    exact rxNoData_rxOk h _
  · rcases bit f.sv with hs | hs <;> rcases bit f.ev with he | he <;> rw [hd, hs, he]
    · rw [rxChunk_continue]
      exact rxContinue_rxOk h _ payload
    · rw [rxChunk_end]
      exact rxEnd_rxOk h _ payload
    · rw [rxChunk_begin]
      exact rxBegin_rxOk h hlen (hstart hs)
    · rw [rxChunk_beginAndEnd]
      split
      · rename_i hend
        exact rxWhole_rxOk h hlen (hstart hs) hend
      · exact rxEndThenStart_rxOk h hlen (hstart hs)

/-! ### The transmit frame in flight (43_data_framer.md R261 to R266) -/

section
variable {s : State} (h : s.TxOk)
include h

/-- A committed chunk lies within its frame, so the cursor stays below the end or the frame is done. -/
theorem chunkCommitted_txOk (hlen : ∀ c, s.txcur = some c → c.cur + s.xlen ≤ c.frame.length) :
    TxOk s.par s.chunkCommitted.txcur s.txq := by
  refine { h with current := fun c hc => ?_ }
  rw [chunkCommitted_txcur] at hc
  obtain ⟨c', hc', hc⟩ := Option.bind_eq_some_iff.mp hc
  have hle := hlen c' hc'
  obtain ⟨-, hmax, -⟩ := h.current c' hc'
  split_ifs at hc with hdone
  cases hc
  exact ⟨Nat.lt_of_le_of_ne hle hdone, hmax, Nat.zero_le _⟩

theorem chunkRejected_txOk : TxOk s.par s.chunkRejected.txcur s.txq := by
  refine { h with current := fun c hc => ?_ }
  rw [chunkRejected_txcur] at hc
  obtain ⟨c', hc', hc⟩ := Option.bind_eq_some_iff.mp hc
  obtain ⟨hcur, hmax, -⟩ := h.current c' hc'
  split_ifs at hc with habort
  cases hc
  exact ⟨hcur, hmax, Nat.not_lt.mp habort⟩

/-- A restarted frame has its first byte to send. -/
theorem restarted_txOk : TxOk s.par (s.txcur.map fun c => ⟨c.frame, 0, 0⟩) s.txq := by
  refine { h with current := fun c hc => ?_ }
  obtain ⟨c', hc', rfl⟩ := Option.map_eq_some_iff.mp hc
  obtain ⟨hcur, hmax, -⟩ := h.current c' hc'
  exact ⟨Nat.zero_lt_of_lt hcur, hmax, Nat.zero_le _⟩

/-- The frame that is loaded for the next chunk is within the bounds, and so is the queue behind it. -/
theorem loadTxcur_txOk {c : TxCur} {q : List (List Byte)} (hl : loadTxcur s = some (c, q)) : TxOk s.par (some c) q := by
  unfold loadTxcur at hl
  cases hc : s.txcur with
  | some c' =>
    rw [hc] at hl
    cases hl
    exact { h with current := fun d hd => h.current d (hc.trans hd) }
  | none =>
    cases hq : s.txq with
    | nil => simp [hc, hq] at hl
    | cons f rest =>
      simp only [hc, hq, Option.some.injEq, Prod.mk.injEq] at hl
      obtain ⟨rfl, rfl⟩ := hl
      obtain ⟨hroom, -, hwait⟩ := h
      rw [hq] at hroom hwait
      obtain ⟨hfirst, hmax⟩ := hwait f List.mem_cons_self
      refine ⟨Nat.le_of_succ_le hroom, fun d hd => ?_, fun g hg => hwait g (List.mem_cons_of_mem f hg)⟩
      cases hd
      exact ⟨hfirst, hmax, Nat.zero_le _⟩

end

/-- The chunk of a data exchange lies within its frame (43_data_framer.md R262). -/
theorem State.ExchangeInv.chunk_le {s : State} (h : s.ExchangeInv) (htx : s.TxOk) (hk : s.xkind = .data) :
    ∀ c, s.txcur = some c → c.cur + s.xlen ≤ c.frame.length := by
  intro c hc
  obtain ⟨c', hc', hlen, -⟩ := h.data hk
  cases hc.symm.trans hc'
  obtain ⟨hcur, -⟩ := htx.current c hc
  rw [hlen, chunkLen]
  omega

/-! ### The control slot after a reply (42_control_transactions.md R224, R228 to R231) -/

theorem CtrlOk.nextUp {par : Params} {slot : Option Txn} {ctrlq : List Txn} (h : CtrlOk par slot ctrlq)
    (hpar : par.Legal) : CtrlOk par ctrlq.head? ctrlq.tail := by
  cases ctrlq with
  | nil => exact .empty par
  | cons a rest =>
    refine ⟨nofun, Nat.le_of_succ_le h.room, fun b hb => h.made b (List.mem_append_right _ hb), fun b hb => ?_,
      fun b hb => h.waiting b (List.mem_cons_of_mem a hb)⟩
    cases hb
    obtain ⟨hp, hn⟩ := h.waiting a List.mem_cons_self
    rw [hp, hn]
    exact ⟨Nat.zero_le _, hpar.1⟩

/-- A retry changes the counters of the slot's transaction alone. -/
theorem CtrlOk.retried {par : Params} {a b : Txn} {ctrlq : List Txn} (h : CtrlOk par (some a) ctrlq)
    (hb : b = { a with pfail := b.pfail, nrep := b.nrep }) (hp : b.pfail ≤ par.parityRetryMax)
    (hn : b.nrep < par.ctrlTimeoutIters) : CtrlOk par (some b) ctrlq := by
  obtain ⟨hmade, hwaiting⟩ := List.forall_mem_cons.mp h.made
  have hmade' : b.Made par := by
    rw [hb]
    exact { hmade with }
  refine { h with slotFirst := nofun, made := List.forall_mem_cons.mpr ⟨hmade', hwaiting⟩, slotBounds := fun c hc => ?_ }
  cases hc
  exact ⟨hp, hn⟩

theorem ReplyCase.ctrlOk {par : Params} {q : List Txn} {a : Txn} {t : State} (hr : ReplyCase par q a t)
    (h : CtrlOk par (some a) q) (hpar : par.Legal) : CtrlOk par t.slot t.ctrlq := by
  obtain ⟨hpfail, hnrep⟩ := h.slotBounds a rfl
  cases hr with
  | answered hslot hqueue =>
    rw [hslot, hqueue]
    exact h.nextUp hpar
  | parityCounted hbound hslot hqueue =>
    rw [hslot, hqueue]
    exact h.retried rfl hbound hnrep
  | noReplyCounted hbound hslot hqueue =>
    rw [hslot, hqueue]
    exact h.retried rfl hpfail hbound

/-! ### The end of an exchange (44_transfer_scheduler.md R318, R321 to R324) -/

section
variable {s : State} (h : s.PartsOk)
include h

theorem tornDown_parts : s.tornDown.PartsOk := by
  obtain ⟨hbuf, hts⟩ := tornDown_rx (s := s) h.rx.clean
  refine ⟨h.config, .empty _, .empty _, ?_⟩
  rw [State.RxOk, hbuf, hts]
  exact h.rx.atRest

theorem failedWith_parts (cause : FatalCause) : (s.failedWith cause).PartsOk :=
  ⟨h.config, .empty _, h.tx, (tornDown_parts h).rx⟩

/-- A teardown whose phase is then `STOPPED`, whatever it has written to the history. -/
theorem stopped_inv (hx : s.NoExchange) {shutCaller : Option Caller} (hshut : shutCaller = none)
    (history : List Indication) :
    State.Inv { s.tornDown with phase := .stopped, shutCaller := shutCaller, history := history } := by
  obtain ⟨hconfig, hctrl, htx, hrx⟩ := tornDown_parts h
  exact State.PartsOk.inv ⟨hconfig, hctrl, htx, hrx⟩ ⟨hx.xkind, hx.xout, hx.xlen, hx.xin⟩ hshut nofun nofun nofun
    fun _ => ⟨rfl, rfl, rfl, rfl⟩

theorem finishDrain_inv (hx : s.NoExchange) : (finishDrain s).Inv := by
  rw [finishDrain_eq]
  exact stopped_inv h hx rfl _

theorem failedWith_inv (hx : s.NoExchange) (hshut : s.shutCaller = none) {cause : FatalCause} (hcause : cause ≠ .none) :
    (s.failedWith cause).Inv :=
  (failedWith_parts h cause).inv ⟨hx.xkind, hx.xout, hx.xlen, hx.xin⟩ hshut nofun (fun _ => ⟨hcause, rfl⟩) nofun nofun

/-- After the inbound bytes are processed the parts hold, and the end of the exchange settles the phase. -/
theorem finishExchange_inv (hshut : s.shutCaller.isSome = true ↔ s.phase = .draining) : (finishExchange s).Inv := by
  have hcleared : (clearExchange s).PartsOk := { h with }
  have hx := clearExchange_noExchange s
  have hnone : s.phase ≠ .draining → s.shutCaller = none := fun hn => by simpa using mt hshut.mp hn
  rcases finishExchange_cases s with ⟨-, hend⟩ | ⟨hn, hcause, hend⟩ | ⟨hn, hcause, hend⟩ <;> rw [hend]
  · exact finishDrain_inv hcleared hx
  · rw [enterFailed_eq]
    exact failedWith_inv hcleared hx (hnone hn) hcause
  · have hidle : State.PartsOk { s with phase := .idle, xkind := .none, xout := [], xlen := 0, xin := [] } := { h with }
    exact hidle.inv ⟨rfl, rfl, rfl, rfl⟩ (hnone hn) nofun nofun (fun _ => hcause) nofun

end

theorem xferFault_inv {s : State} (h : s.Inv) (hp : inFlight s = true) : (xferFault s).Inv := by
  have hparts : State.PartsOk (clearExchange (s.emit .xferFault)) := { h.parts with }
  rcases inFlight_iff.mp hp with hrun | hdrain
  · rw [xferFault_of_exchanging hrun (h.running (.inr (.inl hrun)))]
    exact failedWith_inv hparts (clearExchange_noExchange _) (h.shutCaller_none (by simp [hrun])) nofun
  · rw [xferFault_of_draining hdrain]
    exact finishDrain_inv hparts (clearExchange_noExchange _)

/-! ### The inbound words (44_transfer_scheduler.md R318 to R320)

While an inbound word is processed the inbound string stands in the state; without it the state has the invariant. -/

section
variable {s : State} (h : State.Inv { s with xin := [] })
include h

theorem exec_ctrlIn_inv {i : Instr} {t : State} (hp : i.port = .ctrlIn) (he : exec i s = .next t) : t.Inv := by
  rw [exec_ctrlIn hp] at he
  obtain ⟨-, a, ha, rfl⟩ := completeCtrl_next.mp he
  have hreply := ctrlReply_case (wireWord i) a (s.emit (.xferIn s.xin))
  obtain ⟨_, _, _, _, hwrites⟩ := ctrlReply_writes (wireWord i) a (s.emit (.xferIn s.xin))
  have hctrl : CtrlOk s.par (some a) s.ctrlq := ha ▸ h.parts.ctrl
  have hctrl' := hreply.ctrlOk hctrl h.legal
  rw [hwrites] at hctrl' ⊢
  exact finishExchange_inv { h.parts with ctrl := hctrl' } h.shutdown

/-- The transmit side of a footer: only a data exchange writes the frame in flight, and its chunk lies within it. -/
theorem FooterOutcome.txOk {f : Footer} {p : Bit} {u : State} (hu : FooterOutcome s f p u) :
    TxOk s.par u.txcur s.txq := by
  have htx : s.TxOk := h.parts.tx
  have hchunk : s.xkind = .data → TxOk s.par s.chunkCommitted.txcur s.txq :=
    fun hk => chunkCommitted_txOk htx (h.outbound.chunk_le htx hk)
  cases hu with
  | held hv hs =>
    rw [(rxChunk_writes _ _ _).txcur_eq, afterFooter_txcur]
    split_ifs with hk hbad
    · exact chunkRejected_txOk htx
    · exact hchunk hk
    · exact htx
  | falls hv hseen hsync =>
    rw [State.afterSyncFall, (dropIfAsm_writes _).txcur_eq]
    exact restarted_txOk htx
  | invalid hv =>
    rw [afterInvalidFooter_txcur]
    split_ifs with hk
    · exact hchunk hk
    · exact htx

/-- The receive side of a footer, whose payload is the first W bytes of the inbound string (30_encoding.md R125). -/
theorem FooterOutcome.rxOk {f : Footer} {p : Bit} {u : State} (hu : FooterOutcome s f p u)
    (hlen : s.cfgW ≤ s.xin.length) : u.RxOk := by
  have hrx : s.RxOk := h.parts.rx
  cases hu with
  | held hv hs =>
    refine rxChunk_rxOk ?_ ?_ ?_
    · simpa only [State.RxOk, afterFooter_par, afterFooter_rxst, afterFooter_rxbuf, afterFooter_rxts, afterFooter_rxq]
        using hrx
    · rw [afterFooter_cfgW, List.length_take, min_eq_left hlen]
    · rw [afterFooter_cfgW]
      exact hv.2
  | falls hv hseen hsync => exact dropIfAsm_rxOk hrx
  | invalid hv =>
    have hdrop := dropIfAsm_rxOk (s := { s.received with cntFtrErr := s.cntFtrErr + 1#32, stFtrerr := true }) hrx
    rw [State.afterInvalidFooter]
    split_ifs
    · obtain ⟨_, _, _, hcommit, -, -⟩ := chunkCommitted_writes
        (State.dropIfAsm { s.received with cntFtrErr := s.cntFtrErr + 1#32, stFtrerr := true })
      rw [hcommit]
      exact hdrop
    · exact hdrop

theorem exec_dataIn_inv {i : Instr} {t : State} (hp : i.port = .dataIn) (he : exec i s = .next t) : t.Inv := by
  obtain ⟨f, p, hrow⟩ := footerRow_of_port hp
  have ha : s.FooterArrives (footerWord f p) := by
    rw [exec_footerRow hrow] at he
    exact (completeData_next.mp he).1
  obtain ⟨u, hu, hend⟩ := exec_footer_outcome hrow ha
  cases hend.symm.trans he
  have htx := hu.txOk h
  have hrx := hu.rxOk h ha.cfgW_le
  have hshut : u.shutCaller = s.shutCaller := congrArg Signals.shutCaller hu.signals_eq
  have hsame := hu.unprocessed_eq
  simp only [State.unprocessed, Unprocessed.mk.injEq] at hsame
  obtain ⟨hpar, hcode, hw, -, -, hphase, -, hslot, hctrlq, htxq, -⟩ := hsame
  have hparts : u.PartsOk := by
    refine ⟨?_, ?_, ?_, hrx⟩
    · rw [hpar, hcode, hw]
      exact h.parts.config
    · rw [hpar, hslot, hctrlq]
      exact h.parts.ctrl
    · rw [State.TxOk, hpar, htxq]
      exact htx
  rw [stallCheck_eq]
  refine finishExchange_inv { hparts with } ?_
  simpa only [hshut, hphase] using h.shutdown

theorem exec_inbound_inv {i : Instr} {t : State} (hp : i.port = .ctrlIn ∨ i.port = .dataIn) (he : exec i s = .next t) :
    t.Inv := by
  rcases hp with hp | hp
  · exact exec_ctrlIn_inv h hp he
  · exact exec_dataIn_inv h hp he

end

/-! ### The outbound words (44_transfer_scheduler.md R316) -/

/-- An idle engine that puts an exchange in flight, with the outbound string that belongs to its kind. -/
theorem startExchange_inv {s : State} {kind : XKind} {out : List Byte} {len : Nat} (h : s.Inv) (hp : s.phase = .idle)
    (hkind : kind ≠ .none) (hout : (startExchange kind out len s).ExchangeInv) : (startExchange kind out len s).Inv :=
  { h with
    exchange := iff_of_true hkind (.inl rfl)
    outbound := hout
    failed := nofun
    running := fun _ => h.running (.inl hp)
    stopped := nofun
    shutdown := iff_of_false (by simp [h.shutCaller_none (by simp [hp])]) nofun }

theorem clearWake_inv {s : State} (h : s.Inv) : (clearWake s).Inv := { h with outbound := { h.outbound with } }

/-- Loading the next frame and spending a credit, in an engine that sends nothing. -/
theorem loaded_inv {s : State} {c : TxCur} {q : List (List Byte)} (h : s.Inv) (hp : s.phase = .idle)
    (hl : loadTxcur s = some (c, q)) (txc : BitVec 5) : State.Inv { s with txcur := some c, txq := q, txc := txc } := by
  have hparts : State.PartsOk { s with txcur := some c, txq := q, txc := txc } :=
    { h.parts with tx := loadTxcur_txOk h.parts.tx hl }
  have hx := h.noExchange (.inl hp)
  exact hparts.inv ⟨hx.xkind, hx.xout, hx.xlen, hx.xin⟩ (h.shutCaller_none (by simp [hp])) (by simp [hp]) (by simp [hp])
    (fun _ => h.running (.inl hp)) (by simp [hp])

theorem exec_outbound_inv {i : Instr} {s t : State} (hi : i.port = .outbound) (h : s.Inv) (he : exec i s = .next t) :
    t.Inv := by
  have hp := (exec_outbound_phase hi he).1
  cases i <;> try cases hi
  case ctrlHdrRd | ctrlHdrWr =>
    obtain ⟨a, ha, -, rfl⟩ := issueCtrl_next.mp he
    exact startExchange_inv h hp nofun ⟨nofun, fun _ => ⟨a, ha, rfl, rfl⟩, nofun, nofun⟩
  case dataPoll =>
    obtain ⟨-, rfl⟩ := execDataPoll_next.mp he
    have hcounted : State.Inv { s with stallPolls := if txAvail s then s.stallPolls + 1 else s.stallPolls } :=
      { h with outbound := { h.outbound with } }
    exact startExchange_inv (clearWake_inv hcounted) hp nofun ⟨nofun, nofun, nofun, fun _ => ⟨rfl, rfl⟩⟩
  case dataHdr =>
    obtain ⟨c, q, hl, -, rfl⟩ := execDataHdr_next.mp he
    exact startExchange_inv (clearWake_inv (loaded_inv h hp hl _)) hp nofun
      ⟨nofun, nofun, fun _ => ⟨c, rfl, rfl, rfl⟩, nofun⟩

/-- A phase that accepts REG and TX commands is neither `FAILED` nor `STOPPED` (45_lifecycle_status.md R360). -/
theorem not_ended_of_running {s : State} (hp : s.phase = .idle ∨ s.phase = .exchanging) :
    s.phase ≠ .failed ∧ s.phase ≠ .stopped := by
  rcases hp with hp | hp <;> simp [hp]

/-! ### The commands (45_lifecycle_status.md R350 to R355, 42_control_transactions.md R223, 43_data_framer.md R260, R283) -/

section
variable {s t : State} (h : s.Inv)
include h

theorem respond_inv (c : Caller) (opc : BitVec 8) (code : Status) (data : List Word32) :
    (s.respond c opc code data).Inv := { h with outbound := { h.outbound with } }

theorem answer_inv (opc : BitVec 8) (code : Status) (data : List Word32) : (s.answer opc code data).Inv :=
  respond_inv h _ opc code data

theorem StatusWrites.inv (hw : StatusWrites s t) : t.Inv := by
  obtain ⟨_, _, _, _, _, _, _, _, _, _, rfl⟩ := hw
  exact { h with outbound := { h.outbound with } }

theorem execTsEnable_inv (he : execTsEnable s = .next t) : t.Inv := by
  unfold execTsEnable at he
  split_ifs at he <;> cases he
  case neg =>
    exact answer_inv (StatusWrites.inv h (t := { s with tsEn := true }) ⟨_, _, _, _, _, _, _, _, _, _, rfl⟩) _ _ _
  all_goals exact answer_inv h _ _ _

theorem execTsDisable_inv (he : execTsDisable s = .next t) : t.Inv := by
  unfold execTsDisable at he
  split_ifs at he <;> cases he
  case neg =>
    exact answer_inv (StatusWrites.inv h (t := { s with tsEn := false }) ⟨_, _, _, _, _, _, _, _, _, _, rfl⟩) _ _ _
  all_goals exact answer_inv h _ _ _

theorem execStatusRead_inv (he : execStatusRead s = .next t) : t.Inv := by
  unfold execStatusRead at he
  split_ifs at he <;> cases he <;> exact answer_inv h _ _ _

theorem execStatusClear_inv {mask : BitVec 16} (he : execStatusClear mask s = .next t) : t.Inv := by
  unfold execStatusClear at he
  split_ifs at he <;> cases he
  case neg =>
    exact answer_inv (StatusWrites.inv h (t := clearStatus mask s) ⟨_, _, _, _, _, _, _, _, _, _, rfl⟩) _ _ _
  all_goals exact answer_inv h _ _ _

/-- INIT sets every element but the parameters, so only their legality is inherited. -/
theorem initState_inv (tscap za : Bit) (wcode : BitVec 2) : (initState tscap za wcode s).Inv := by
  have hparts : (initState tscap za wcode s).PartsOk :=
    ⟨⟨h.legal, rfl⟩, .empty _, .empty _, ⟨Nat.zero_le _, nofun, fun _ => ⟨rfl, rfl⟩, nofun⟩⟩
  exact hparts.inv ⟨rfl, rfl, rfl, rfl⟩ rfl nofun nofun (fun _ => rfl) nofun

theorem execInit_inv {tscap za : Bit} {wcode : BitVec 2} (he : execInit tscap za wcode s = .next t) : t.Inv := by
  unfold execInit at he
  split_ifs at he <;> cases he
  · exact answer_inv (initState_inv h tscap za wcode) _ _ _
  · exact answer_inv h _ _ _

theorem execShutdown_inv (he : execShutdown s = .next t) : t.Inv := by
  have hstop : s.phase = .idle ∨ s.phase = .failed →
      State.Inv ({ teardown s with phase := .stopped }.answer opcShutdown .ok []) := by
    intro hp
    have hshut := h.shutCaller_none (by rcases hp with hp | hp <;> simp [hp])
    rw [teardown_eq]
    exact stopped_inv h.parts (h.noExchange hp) hshut _
  unfold execShutdown at he
  cases hp : s.phase <;> rw [hp] at he <;> cases he
  case idle => exact hstop (.inl hp)
  case failed => exact hstop (.inr hp)
  case exchanging =>
    exact
      { h with
        exchange := iff_of_true (h.exchange.mpr (.inl hp)) (.inr rfl)
        outbound := { h.outbound with }
        failed := nofun
        running := fun _ => h.running (.inr (.inl hp))
        stopped := nofun
        shutdown := iff_of_true rfl rfl }
  all_goals exact answer_inv h _ _ _

/-- RX_POLL shortens the queue of delivered frames. -/
theorem execRxPoll_inv (he : execRxPoll s = .next t) : t.Inv := by
  unfold execRxPoll at he
  split at he
  · cases he
    exact answer_inv h _ _ _
  · cases hq : s.rxq with
    | nil =>
      rw [hq] at he
      cases he
      exact answer_inv h _ _ _
    | cons f rest =>
      simp only [hq] at he
      cases he
      obtain ⟨hctrl, htx, hrx⟩ := h.capacities
      have hframes := h.rxqFrames
      rw [hq] at hrx hframes
      have hrest : State.Inv { s with rxq := rest } :=
        { h with
          capacities := ⟨hctrl, htx, Nat.le_of_succ_le hrx⟩
          outbound := { h.outbound with }
          rxqFrames := fun g hg => hframes g (List.mem_cons_of_mem f hg) }
      exact answer_inv hrest _ _ _

/-- TX_ENQUEUE adds a frame of a legal length where the queue has room and the phase is not `STOPPED`. -/
theorem execTxEnqueue_inv {frame : List Byte} (he : execTxEnqueue frame s = .next t) : t.Inv := by
  unfold execTxEnqueue at he
  split at he
  · cases he
    exact answer_inv h _ _ _
  · rename_i hlen
    simp only [frameLenOk, Bool.and_eq_false_iff, decide_eq_false_iff_not, not_or, not_not] at hlen
    split at he
    · cases he
      exact answer_inv h _ _ _
    · rename_i hrej
      have hp := phaseReject_none hrej
      split_ifs at he with hfull <;> cases he
      · exact answer_inv h _ _ _
      · obtain ⟨hctrl, htx, hrx⟩ := h.capacities
        have hroom : (s.txq ++ [frame]).length ≤ s.par.txqCap := by
          simp only [List.length_append, List.length_cons, List.length_nil]
          omega
        have hadded : State.Inv { s with txq := s.txq ++ [frame], freshWake := true } :=
          { h with
            capacities := ⟨hctrl, hroom, hrx⟩
            outbound := { h.outbound with }
            txqFrames := List.forall_mem_append.mpr ⟨h.txqFrames, List.forall_mem_singleton.mpr hlen⟩
            stopped := fun hs => absurd hs (not_ended_of_running hp).2 }
        exact answer_inv hadded _ _ _

/-- A new transaction takes the empty slot, or goes behind the slot where the queue has room. -/
theorem submitCtrl_inv {a : Txn} (d : List Word32) (hp : s.phase = .idle ∨ s.phase = .exchanging) (ha : a.Made s.par)
    (hnew : a.pfail = 0 ∧ a.nrep = 0) : (submitCtrl a d s).Inv := by
  have hstart : a.pfail ≤ s.par.parityRetryMax ∧ a.nrep < s.par.ctrlTimeoutIters := by
    rw [hnew.1, hnew.2]
    exact ⟨Nat.zero_le _, h.legal.1⟩
  obtain ⟨hfailed, hstopped⟩ := not_ended_of_running hp
  unfold submitCtrl
  split_ifs with hs hroom
  · have hnoctrl : s.xkind ≠ .ctrl := fun hk => by
      obtain ⟨b, hb, -⟩ := h.outbound.ctrl hk
      exact absurd (hs.symm.trans hb) nofun
    have hnone : ∀ b ∈ s.ctrlq, b.Made s.par := by simp [h.slotFirst hs]
    exact
      { h with
        slotFirst := nofun
        outbound := { h.outbound with ctrl := fun hk => absurd hk hnoctrl }
        txns := List.forall_mem_cons.mpr ⟨ha, hnone⟩
        slotBounds := fun b hb => by cases hb; exact hstart
        failed := fun hf => absurd hf hfailed
        stopped := fun hf => absurd hf hstopped }
  · obtain ⟨-, htx, hrx⟩ := h.capacities
    have hlen : (s.ctrlq ++ [a]).length ≤ s.par.ctrlqCap := by simpa using hroom
    have hmade : ∀ b ∈ s.slot.toList ++ (s.ctrlq ++ [a]), b.Made s.par := by
      rw [← List.append_assoc]
      exact List.forall_mem_append.mpr ⟨h.txns, List.forall_mem_singleton.mpr ha⟩
    exact
      { h with
        slotFirst := fun hn => absurd hn hs
        capacities := ⟨hlen, htx, hrx⟩
        outbound := { h.outbound with }
        txns := hmade
        waiting := List.forall_mem_append.mpr ⟨h.waiting, List.forall_mem_singleton.mpr hnew⟩ }
  · exact h.withAgents _ _ _

theorem regCommand_inv {a : Txn} (d : List Word32) (ha : countOk a.n = true → a.Made s.par)
    (hnew : a.pfail = 0 ∧ a.nrep = 0) : (regCommand a d s).Inv := by
  unfold regCommand
  split_ifs with hcount
  · exact answer_inv h _ _ _
  · split
    · exact answer_inv h _ _ _
    · rename_i hrej
      exact submitCtrl_inv h d (phaseReject_none hrej) (ha (by simpa using hcount)) hnew

end

/-- `mk_txn` of a legal count and its values (42_control_transactions.md R220). -/
theorem mkTxn_made {par : Params} {op : TxnOp} {aid : Bit} {mms : BitVec 4} {addr : BitVec 16} {n : Nat}
    {wvals : List Word32} {caller : Caller} (hn : countOk n = true) (hv : wvals.length = if op = .wr then n else 0) :
    (mkTxn par.paritySense op aid mms addr n wvals caller).Made par := by
  simp only [countOk, Bool.and_eq_true, decide_eq_true_eq] at hn
  exact ⟨hn, hv, rfl⟩

theorem exec_command_inv {i : Instr} {s t : State} (hi : i.port = .command) (h : s.Inv) (he : exec i s = .next t) :
    t.Inv := by
  cases i <;> try cases hi
  case init => exact execInit_inv h he
  case shutdown => exact execShutdown_inv h he
  case regRead =>
    cases he
    exact regCommand_inv h _ (fun hn => mkTxn_made hn rfl) ⟨rfl, rfl⟩
  case regWrite =>
    cases he
    exact regCommand_inv h _ (fun hn => mkTxn_made hn rfl) ⟨rfl, rfl⟩
  case txEnqueue => exact execTxEnqueue_inv h he
  case rxPoll => exact execRxPoll_inv h he
  case tsEnable => exact execTsEnable_inv h he
  case tsDisable => exact execTsDisable_inv h he
  case statusRead => exact execStatusRead_inv h he
  case statusClear => exact execStatusClear_inv h he

/-! ### The steps that run no instruction -/

theorem wake_inv {s : State} (h : s.Inv) : (wake s).Inv := by
  unfold wake
  split
  · exact { h with outbound := { h.outbound with } }
  · exact h

/-! ### The obligation -/

/-- Settles O51: what the agents hold is not in the invariant, so the step is the command, the word or the event that it runs. -/
theorem everyStepKeepsTheInvariant : Obligations.EveryStepKeepsTheInvariant := by
  intro s t h hs
  cases step_next_cases hs with
  | command c d s0 i ht hd he =>
    obtain ⟨inputs, held, rfl, -⟩ := ht.fewer
    exact exec_command_inv (decode_command_port hd) (h.withAgents inputs held c) he
  | invalid c d s0 e ht hd he =>
    obtain ⟨inputs, held, rfl, -⟩ := ht.fewer
    subst he
    exact respond_inv (h.withAgents inputs held s.portCaller) c _ _ _
  | queued c d rest hq he =>
    subst he
    exact h.withAgents _ _ _
  | wake rest hq he =>
    subst he
    exact wake_inv (h.withAgents rest s.held s.portCaller)
  | idle s0 ht hw he =>
    obtain ⟨inputs, rfl, -⟩ := ht.keeps
    subst he
    exact h.withAgents _ _ _
  | issue s0 w i ht hw hd he =>
    obtain ⟨inputs, rfl, -⟩ := ht.keeps
    exact exec_outbound_inv (decode_outbound_port hd) (h.withAgents inputs s.held s.portCaller) he
  | complete bytes rest i hq hl hd he =>
    have hport := decode_inbound_port (inboundPort_inbound s) hd ▸ inboundPort_inbound s
    have hbefore : State.Inv { s with inputs := rest, xin := [] } :=
      { h with outbound := { h.outbound with }, noInbound := rfl }
    exact exec_inbound_inv (s := { s with inputs := rest, xin := bytes }) hbefore hport he
  | fault rest hq hp he =>
    subst he
    exact xferFault_inv (h.withAgents rest s.held s.portCaller) hp

end Sys2Proof.Machine
